-- ==== Sys2Proof/Word.lean ====
section
/-! DEFINITION. The word types of the block: a byte, a 7-bit bus address, a 16-bit space address (R9, R12, R42). -/

namespace Sys2Proof

/-- A byte: an unsigned 8-bit value, bit 7 the top bit (R9). -/
abbrev Byte := BitVec 8

/-- A 7-bit bus address of the transport (R3, R40). -/
abbrev BusAddr := BitVec 7

/-- A 16-bit address of the XDATA or the EEPROM space (R42, R43). -/
abbrev Addr16 := BitVec 16

end Sys2Proof
end

