-- ==== Sys2Proof/Config.lean ====
section
/-! DEFINITION. What the spec leaves open. The OPEN parameters of R7 (no source gives a value, a claim must hold for every
value) and the free values: opaque constants, so that nothing can be proved of them. The parameters that have a value stand
in Sys2Proof/Machine/Constants.lean. -/

namespace Sys2Proof

/-- `DBG_ENABLE_SEQ`: the 4-byte unlock sequence sent to DDC, OPEN (R7, R84, D2). -/
structure EnableSeq where
  b0 : Byte
  b1 : Byte
  b2 : Byte
  b3 : Byte
deriving DecidableEq, Repr, Inhabited

/-- `DBG_DISABLE_SEQ`: the 2-byte sequence sent to the debug address, OPEN (R7, R84, D2). -/
structure DisableSeq where
  b0 : Byte
  b1 : Byte
deriving DecidableEq, Repr, Inhabited

/-- The OPEN parameters of R7. The three bus addresses are pairwise distinct (D1): they are read through `addrIsp`,
`addrDdc` and `addrDbg`, which move a clashing seed on to the next free address, so that every distinct triple is reached
and no other (log 9). -/
structure Params where
  ispSeed : BusAddr
  ddcSeed : BusAddr
  dbgSeed : BusAddr
  enable  : EnableSeq
  disable : DisableSeq
deriving DecidableEq, Repr, Inhabited

/-- What one draw of the whole target holds: every target variable of R38 (R67, U4). The memories are the writes that make
the drawn contents out of an empty memory. -/
structure TargetDraw where
  isp       : List (Byte × Byte)
  ispPtr    : Byte
  debugMode : Bool
  mcuHalted : Bool
  xdata     : List (Addr16 × Byte)
  eeprom    : List ((Byte × Addr16) × Byte)
  dataOut   : Option Byte
deriving DecidableEq, Repr, Inhabited

/-- The class of a transport failure: a bus-level no-acknowledge, or every other failure (R12, R13). -/
inductive ErrClass where
  | unreachable
  | other
deriving DecidableEq, Repr, Inhabited

/-- The outcome of one transaction: success with the bytes read (none for a write), a failure, or no return at all (R12). -/
inductive Answer where
  | ok (rs : List Byte)
  | err (k : ErrClass)
  | hang
deriving DecidableEq, Repr, Inhabited

/-- The OPEN parameters of the machine after reset: nothing is known of them (R7, log 9). -/
opaque Config.params : Params

/-- A free byte: the value of a read the spec gives no value for (U11, R72; a non-compliant read, R71), or the byte a write leaves
that had no time to settle (U12, R71). -/
opaque Config.freeByte : Nat → Byte

/-- A free outcome: of a frame sent before its settle delay has passed (U12, R71). -/
opaque Config.freeAnswer : Nat → Answer

/-- A free target: every variable redrawn, after the ISP reset command (U4, R67) or a frame sent too early (U12, R71). -/
opaque Config.freeTarget : Nat → TargetDraw

end Sys2Proof
end

