-- ==== Sys2Proof/Machine/Constants.lean ====
section
/-! DEFINITION. The parameters of R7 that have a value. The spec adopts every literal as its source writes it and says that
none was audited (U10, log 26). -/

namespace Sys2Proof

/-- `ISP_CTRL_REG`: the ISP-mode control register, bit 7 the enable (R35, R55). -/
def ispCtrlReg : Byte := 0x6f
/-- `ISP_EN_ON` (R7). -/
def ispEnOn : Byte := 0x80
/-- `ISP_EN_OFF` (R7). -/
def ispEnOff : Byte := 0x00
/-- First byte of `ISP_RESET_CMD`: the reset command register (R35). -/
def ispResetReg : Byte := 0xee
/-- Second byte of `ISP_RESET_CMD` (R35). -/
def ispResetVal : Byte := 0x03
/-- `CMD_HALT` (R45). -/
def cmdHalt : Byte := 0x80
/-- `HALT_VAL` (D3). -/
def haltVal : Byte := 0x01
/-- `RUN_VAL` (D3). -/
def runVal : Byte := 0x00
/-- `CMD_XDATA_RD` (R45). -/
def cmdXdataRd : Byte := 0x3a
/-- `CMD_XDATA_WR` (R45). -/
def cmdXdataWr : Byte := 0x3b
/-- `CMD_EE_RD` (R45). -/
def cmdEeRd : Byte := 0x44
/-- `CMD_EE_WR` (R45). -/
def cmdEeWr : Byte := 0x04
/-- `EE_RD_PAD` (R82). -/
def eeRdPad : Byte := 0x00
/-- `ISP_READ_PREFIX`, decided empty (D6). -/
def ispReadPrefix : List Byte := []
/-- `DBG_READ_PREFIX`, decided empty (D6). -/
def dbgReadPrefix : List Byte := []
/-- `DBG_PROBE.ws`, decided empty (D7). -/
def dbgProbeWs : List Byte := []
/-- `DBG_PROBE.n`, decided 1 (D7). -/
def dbgProbeN : Nat := 1
/-- `CTOR_PROBE.ws`, decided empty (D8). -/
def ctorProbeWs : List Byte := []
/-- `CTOR_PROBE.n`, decided 1 (D8). -/
def ctorProbeN : Nat := 1
/-- `EEPROM_TARGET_DEFAULT` (R7). -/
def eepromTargetDefault : Byte := 0xa0
/-- `READ_LEN_DEFAULT` (R7). -/
def readLenDefault : Int := 1
/-- `DUMP_LEN_DEFAULT` (R7). -/
def dumpLenDefault : Int := 16
/-- `HALT_DEFAULT` (D5). -/
def haltDefault : Bool := true
/-- `FORCE_DEFAULT` (R7). -/
def forceDefault : Bool := false
/-- `AUTO_RESET` (D9). -/
def autoReset : Bool := false
/-- `HALTED_RESET` (D9). -/
def haltedReset : Bool := false
/-- `T_MODE` in milliseconds (R193). -/
def tMode : Nat := 50
/-- `T_HALT` in milliseconds (R193). -/
def tHalt : Nat := 100
/-- `T_SETTLE` in milliseconds (R193). -/
def tSettle : Nat := 10
/-- `T_EEPROM` in milliseconds (R193). -/
def tEeprom : Nat := 10

/-- `ADDR_ISP` (R7, D1). -/
def Params.addrIsp (p : Params) : BusAddr := p.ispSeed

/-- `ADDR_DDC`, distinct from `ADDR_ISP` (D1). -/
def Params.addrDdc (p : Params) : BusAddr := if p.ddcSeed = p.addrIsp then p.ddcSeed + 1 else p.ddcSeed

/-- `ADDR_DBG`, distinct from both others (D1): the first address at or after the seed that neither of them takes. -/
def Params.addrDbg (p : Params) : BusAddr :=
  if p.dbgSeed ≠ p.addrIsp ∧ p.dbgSeed ≠ p.addrDdc then p.dbgSeed
  else if p.dbgSeed + 1 ≠ p.addrIsp ∧ p.dbgSeed + 1 ≠ p.addrDdc then p.dbgSeed + 1
  else p.dbgSeed + 2

/-- The bytes of `DBG_ENABLE_SEQ`, in the order sent (R84). -/
def EnableSeq.bytes (q : EnableSeq) : List Byte := [q.b0, q.b1, q.b2, q.b3]

/-- The bytes of `DBG_DISABLE_SEQ`, in the order sent (R84). -/
def DisableSeq.bytes (q : DisableSeq) : List Byte := [q.b0, q.b1]

end Sys2Proof
end

