-- ==== Sys2Proof/Syntax.lean ====
section
/-! DEFINITION. The instructions: one constructor per row of spec/opcode_table.json (16 host requests, 16 bus frames), and
the two raw forms they are read from, a host request record (R89) and a bus transaction (R75). -/

namespace Sys2Proof

/-- The three sub-devices, each at its own fixed bus address (R3, R12, R40). -/
inductive Dev where
  | isp
  | ddc
  | dbg
deriving DecidableEq, Repr

/-- The three address spaces (R41, R42, R43). DDC has none (R44). -/
inductive Space where
  | isp
  | xdata
  | eeprom
deriving DecidableEq, Repr

/-- The host operations of R90, one per operation code. -/
inductive Op where
  | ispRead
  | ispWrite
  | ispDump
  | xdataRead
  | xdataWrite
  | xdataDump
  | eepromRead
  | eepromWrite
  | eepromDump
  | ispEnabled
  | ispSetEnabled
  | dbgEnabled
  | dbgSetEnabled
  | dbgSetAuto
  | ispReset
  | dbgHalt
deriving DecidableEq, Repr

/-- The host request record (R89): `op` and the operands, each absent when the host leaves it out. `last` is the spec's
operand `end`. The payload's inner `none` is a non-iterable payload (R111, D19). -/
structure Request where
  op      : Byte
  start   : Option Int := none
  length  : Option Int := none
  last    : Option Int := none
  payload : Option (Option (List Byte)) := none
  halt    : Option Bool := none
  target  : Option Byte := none
  on      : Option Bool := none
  force   : Option Bool := none
deriving DecidableEq, Repr

/-- A transport transaction (R12, R75): `w` writes a frame, `wr` writes a frame and reads `n` bytes in one transaction. -/
inductive Txn where
  | w (dev : Dev) (bs : List Byte)
  | wr (dev : Dev) (ws : List Byte) (n : Nat)
deriving DecidableEq, Repr

/-- Which rule emits a frame (last column of R76). Some rows share their bytes: `F_ISP_DATA` and `F_CTOR_PROBE`,
`F_DBG_DATA` and `F_DBG_PROBE`, and the instances of `F_ISP_WR` (R78); the emitting rule tells them apart (log 20). -/
inductive Emitter where
  | construction
  | modeQuery
  | modeSet
  | ispReset
  | haltControl
  | transfer
deriving DecidableEq, Repr

/-- The instructions. A host request carries its operands after the defaults of R90 (a dump keeps `length` and `end` apart,
R156). A bus frame carries the fields of R76. -/
inductive Instr where
  /-- `isp.read` (R137). -/
  | ispRead (start length : Int)
  /-- `isp.write` (R139). -/
  | ispWrite (start : Int) (payload : Option (List Byte))
  /-- `isp.dump` (R157). -/
  | ispDump (start : Int) (length last : Option Int)
  /-- `xdata.read` (R143). -/
  | xdataRead (start length : Int) (halt : Bool)
  /-- `xdata.write` (R145). -/
  | xdataWrite (start : Int) (payload : Option (List Byte)) (halt : Bool)
  /-- `xdata.dump` (R157). -/
  | xdataDump (start : Int) (length last : Option Int) (halt : Bool)
  /-- `eeprom.read` (R149). -/
  | eepromRead (start length : Int) (target : Byte) (halt : Bool)
  /-- `eeprom.write` (R151). -/
  | eepromWrite (start : Int) (payload : Option (List Byte)) (target : Byte) (halt : Bool)
  /-- `eeprom.dump` (R157). -/
  | eepromDump (start : Int) (length last : Option Int) (target : Byte) (halt : Bool)
  /-- `isp.enabled` (R112). -/
  | ispEnabled
  /-- `isp.set_enabled` (R113). -/
  | ispSetEnabled (on force : Bool)
  /-- `dbg.enabled` (R114). -/
  | dbgEnabled
  /-- `dbg.set_enabled` (R117). -/
  | dbgSetEnabled (on force : Bool)
  /-- `dbg.set_auto` (R120). -/
  | dbgSetAuto (on : Bool)
  /-- `isp.reset` (R141). -/
  | ispReset
  /-- `dbg.halt` (R131). -/
  | dbgHalt (on : Bool)
  /-- `F_ISP_PTR` (R77): field A. -/
  | fIspPtr (a : Byte)
  /-- `F_ISP_DATA` (R77). -/
  | fIspData
  /-- `F_ISP_WR` (R78): fields A, V. -/
  | fIspWr (a v : Byte)
  /-- `F_ISP_CTRL` (R78): field E. -/
  | fIspCtrl (e : Bool)
  /-- `F_ISP_RESET` (R78). -/
  | fIspReset
  /-- `F_ISP_QUERY` (R79). -/
  | fIspQuery
  /-- `F_CTOR_PROBE` (R85). -/
  | fCtorProbe
  /-- `F_HALT` (R80): field h. -/
  | fHalt (h : Bool)
  /-- `F_XDATA_RD` (R81): the address of fields L and H. -/
  | fXdataRd (a : Addr16)
  /-- `F_XDATA_WR` (R81). -/
  | fXdataWr (a : Addr16) (v : Byte)
  /-- `F_EE_RD` (R82): the address of fields L and H, and field T. -/
  | fEeRd (a : Addr16) (t : Byte)
  /-- `F_EE_WR` (R82). -/
  | fEeWr (a : Addr16) (t v : Byte)
  /-- `F_DBG_DATA` (R83). -/
  | fDbgData
  /-- `F_DBG_PROBE` (R83). -/
  | fDbgProbe
  /-- `F_DBG_EN` (R84). -/
  | fDbgEn
  /-- `F_DBG_DIS` (R84). -/
  | fDbgDis
deriving DecidableEq, Repr

/-- The encoded form of an instruction: a host request record, or a transaction together with the rule that emits it. -/
inductive Code where
  | request (r : Request)
  | frame (e : Emitter) (t : Txn)
deriving DecidableEq, Repr

/-- An operand of a request that R91 requires. -/
inductive Operand where
  | start
  | payload
  | on
deriving DecidableEq, Repr

/-- Why the decoder rejects a form, each by name. -/
inductive DecodeError where
  /-- A reserved operation code (R91, U6). -/
  | reservedOp (op : Byte)
  /-- A required operand is missing (R91, U6). -/
  | missingOperand (o : Operand)
  /-- `end` on a request that is no dump (R91, U6). -/
  | endOnNonDump
  /-- A transaction R76 does not list for the rule that emits it (R88, U5). -/
  | unlistedFrame
deriving DecidableEq, Repr

/-- What the decoder answers. -/
inductive Decoded where
  | instr (i : Instr)
  | rejected (e : DecodeError)
deriving DecidableEq, Repr

/-! Pseudo-operations (R95, D22): other names of core requests. -/

/-- `isp.enable`. -/
abbrev Instr.ispEnable : Instr := .ispSetEnabled true false
/-- `isp.disable`. -/
abbrev Instr.ispDisable : Instr := .ispSetEnabled false false
/-- `dbg.enable`. -/
abbrev Instr.dbgEnable : Instr := .dbgSetEnabled true false
/-- `dbg.disable`. -/
abbrev Instr.dbgDisable : Instr := .dbgSetEnabled false false
/-- `dbg.run`. -/
abbrev Instr.dbgRun : Instr := .dbgHalt false

end Sys2Proof
end

