-- ==== Sys2Proof/Machine/Opcodes.lean ====
section
/-! DEFINITION. The host operation codes of R90 and what a code implies (R92). -/

namespace Sys2Proof

/-- The 8-bit operation code (R90). -/
def Op.code : Op → Byte
  | .ispRead       => 0x01
  | .ispWrite      => 0x02
  | .ispDump       => 0x03
  | .xdataRead     => 0x11
  | .xdataWrite    => 0x12
  | .xdataDump     => 0x13
  | .eepromRead    => 0x21
  | .eepromWrite   => 0x22
  | .eepromDump    => 0x23
  | .ispEnabled    => 0x30
  | .ispSetEnabled => 0x31
  | .dbgEnabled    => 0x32
  | .dbgSetEnabled => 0x33
  | .dbgSetAuto    => 0x34
  | .ispReset      => 0x35
  | .dbgHalt       => 0x36

/-- Every operation of R90. -/
def Op.all : List Op :=
  [.ispRead, .ispWrite, .ispDump, .xdataRead, .xdataWrite, .xdataDump, .eepromRead, .eepromWrite, .eepromDump,
   .ispEnabled, .ispSetEnabled, .dbgEnabled, .dbgSetEnabled, .dbgSetAuto, .ispReset, .dbgHalt]

/-- The operation of a code, none for a reserved code (R91). -/
def Op.ofCode (b : Byte) : Option Op := Op.all.find? fun o => o.code == b

/-- The space implied by the high nibble of the code (R92). -/
def Op.space (o : Op) : Option Space :=
  match (o.code >>> 4).toNat with
  | 0 => some .isp
  | 1 => some .xdata
  | 2 => some .eeprom
  | _ => none

/-- The dump operations, the only ones that take `end` (R91). -/
def Op.isDump : Op → Bool
  | .ispDump | .xdataDump | .eepromDump => true
  | _ => false

/-- The write operations: `rangeOp` with `kind = Write` (R125). -/
def Op.isWrite : Op → Bool
  | .ispWrite | .xdataWrite | .eepromWrite => true
  | _ => false

/-- Operations that require the operand `on` (R91). -/
def Op.needsOn : Op → Bool
  | .ispSetEnabled | .dbgSetEnabled | .dbgSetAuto | .dbgHalt => true
  | _ => false

end Sys2Proof
end

