-- ==== Sys2Proof/Machine/Operands.lean ====
section
/-! DEFINITION. Operand assembly (R86): the byte split of an address, the frame of every format of R76, and the operands a
range request computes with (R107, R156). -/

namespace Sys2Proof

/-- `lo8(a) = a[7:0]` (R9). -/
def lo8 (a : Addr16) : Byte := a.extractLsb' 0 8

/-- `hi8(a) = a[15:8]` (R9). -/
def hi8 (a : Addr16) : Byte := a.extractLsb' 8 8

/-- The address of a low and a high byte: `hi * 256 + lo` (R70, R72). -/
def joinAddr (hi lo : Byte) : Addr16 := hi ++ lo

/-- `F_ISP_PTR` (R77). -/
def txIspPtr (a : Byte) : Txn := .w .isp [a]

/-- `F_ISP_DATA` (R77, D6). -/
def txIspData : Txn := .wr .isp ispReadPrefix 1

/-- `F_ISP_WR` (R78). -/
def txIspWr (a v : Byte) : Txn := .w .isp [a, v]

/-- `F_ISP_CTRL` (R78): E at bit 7 of byte 1. -/
def txIspCtrl (e : Bool) : Txn := .w .isp [ispCtrlReg, if e then ispEnOn else ispEnOff]

/-- `F_ISP_RESET` (R78). -/
def txIspReset : Txn := .w .isp [ispResetReg, ispResetVal]

/-- `F_ISP_QUERY` (R79). -/
def txIspQuery : Txn := .wr .isp [ispCtrlReg] 1

/-- `F_CTOR_PROBE` (R85). -/
def txCtorProbe : Txn := .wr .isp ctorProbeWs ctorProbeN

/-- `F_HALT` (R80): bit 0 of byte 1 is `on`. -/
def txHalt (h : Bool) : Txn := .w .dbg [cmdHalt, if h then haltVal else runVal]

/-- `F_XDATA_RD` (R81). -/
def txXdataRd (a : Addr16) : Txn := .w .dbg [cmdXdataRd, lo8 a, hi8 a]

/-- `F_XDATA_WR` (R81). -/
def txXdataWr (a : Addr16) (v : Byte) : Txn := .w .dbg [cmdXdataWr, lo8 a, hi8 a, v]

/-- `F_EE_RD` (R82). -/
def txEeRd (a : Addr16) (t : Byte) : Txn := .w .dbg [cmdEeRd, lo8 a, t, eeRdPad, hi8 a]

/-- `F_EE_WR` (R82). -/
def txEeWr (a : Addr16) (t v : Byte) : Txn := .w .dbg [cmdEeWr, lo8 a, t, v, hi8 a]

/-- `F_DBG_DATA` (R83). -/
def txDbgData : Txn := .wr .dbg dbgReadPrefix 1

/-- `F_DBG_PROBE` (R83). -/
def txDbgProbe : Txn := .wr .dbg dbgProbeWs dbgProbeN

/-- `F_DBG_EN` (R84). -/
def txDbgEn (p : Params) : Txn := .w .ddc p.enable.bytes

/-- `F_DBG_DIS` (R84). -/
def txDbgDis (p : Params) : Txn := .w .dbg p.disable.bytes

/-- `A = a[7:0]` of the address `a` of a transfer (R86). -/
def isp8 (a : Int) : Byte := BitVec.ofInt 8 a

/-- The 16 address bits of the address `a` of a transfer (R86). -/
def addr16 (a : Int) : Addr16 := BitVec.ofInt 16 a

/-- `dumpLength` (R156): `end` wins over `length` (R91), else the dump default. -/
def dumpLength (start : Int) (length last : Option Int) : Int :=
  match last with
  | some e => e - start + 1
  | none => length.getD dumpLenDefault

/-- The transfer count `n = max(length, 0)` (R107). -/
def transferCount (length : Int) : Nat := length.toNat

end Sys2Proof
end

