-- ==== Sys2Proof/Machine/State.lean ====
section
/-! DEFINITION. The state of the machine (10_state.md), as plain data: the engine's registers and latches, what is observed of
it, the target of the reference device (R38), the OPEN parameters, and the lists that say what the host, the transport and the
MCU will do. -/

namespace Sys2Proof.Machine

/-- The life state of the block (R25). -/
inductive Life where
  | unbuilt
  | ready
  | busy
  | dead
deriving DecidableEq, Repr

/-- The sequencer position (phase, i) (R28): the index i is valid in `transfer` only. -/
inductive Phase where
  | idle
  | modeCheck
  | autoEnable
  | validate
  | haltOpen
  | transfer (i : Nat)
  | haltClose
  | autoDisable
  | respond
deriving DecidableEq, Repr

/-- The target modes a guard asks for (R160). -/
inductive Mode where
  | isp
  | debug
deriving DecidableEq, Repr

/-- Which bound of a range is violated (R108): `stop` is the spec's `End`. -/
inductive Bound where
  | start
  | stop
deriving DecidableEq, Repr

/-- The one cause of `InvalidState` (R160, D20). -/
inductive InvalidReason where
  | disableWhileHalted
deriving DecidableEq, Repr

/-- The error kinds with their info (R160). -/
inductive Err where
  | deviceUnreachable
  | preconditionFailed (m : Mode)
  | invalidState (r : InvalidReason)
  | rangeError (space : Space) (bound : Bound) (value limit : Int)
  | invalidPayload
  | transportError (k : ErrClass)
deriving DecidableEq, Repr

/-- The result of a request that succeeds: the bytes of a read, the answer of a query, or nothing (R14, R160). -/
inductive Result where
  | bytes (bs : List Byte)
  | flag (b : Bool)
  | void
deriving DecidableEq, Repr

/-- The response to a request (R14). -/
inductive Response where
  | ok (r : Result)
  | error (e : Err)
deriving DecidableEq, Repr

/-- One event of the bus trace (R12, R14, R94). -/
inductive Event where
  /-- `W(dev, bs)` with its outcome. -/
  | w (dev : Dev) (bs : List Byte) (a : Answer)
  /-- `WR(dev, ws, n)` with its outcome. -/
  | wr (dev : Dev) (ws : List Byte) (n : Nat) (a : Answer)
  /-- `D(ms)`. -/
  | d (ms : Nat)
deriving DecidableEq, Repr

/-- The request latches (R26), loaded at acceptance and read only. A latch the operation does not use has no effect and holds
the default written here (log 17). -/
structure Latches where
  op      : Op
  space   : Option Space := none
  start   : Int := 0
  length  : Option Int := none
  last    : Option Int := none
  payload : Option (List Byte) := none
  halt    : Bool := haltDefault
  target  : Byte := eepromTargetDefault
  on      : Bool := false
  force   : Bool := forceDefault
deriving DecidableEq, Repr

/-- A memory: (address, byte) pairs in one canonical form, addresses strictly rising and no byte equal to `Memory.blank`
(kept by every operation, Sys2Proof/Laws/Memory.lean). -/
abbrev Memory := List Host.Cell

/-- What a byte reads as that nothing has written: the spec gives no contents (R38, U9), DESIGN CHOICE, unsafe (log 6). -/
def Memory.blank : Byte := 0

/-- One byte of the target's storage (R41, R42, R43). -/
inductive Loc where
  | isp (a : Byte)
  | xdata (a : Addr16)
  | eeprom (t : Byte) (a : Addr16)
deriving DecidableEq, Repr

/-- The target: the variables of R38, then six fields of the model's own that R70, R71 and U12 need (log 12, log 13) and the
counter of free values (log 10). -/
structure Target where
  isp       : Memory
  ispPtr    : Byte
  debugMode : Bool
  mcuHalted : Bool
  xdata     : Memory
  eeprom    : Memory
  dataOut   : Option Byte
  readSetup : Option Loc
  owedRead  : Nat
  lastWrite : Option Loc
  owedWrite : Nat
  owedMem   : Nat
  owedCmd   : Nat
  draws     : Nat
deriving DecidableEq, Repr

/-- What the transport does with one transaction (R12, R65, R164): `device` lets the reference device answer; `override` reports
the outcome `a` whatever the device would answer, and `took` says whether the frame took effect on the target (U2, log 24). -/
inductive Fate where
  | device
  | override (a : Answer) (took : Bool)
deriving DecidableEq, Repr

/-- What the host does next (R15): issue a request, or release the handle and open a new session on the same target (R189, log 22). -/
inductive HostAct where
  | request (r : Request)
  | newSession
deriving DecidableEq, Repr

/-- The machine. -/
structure State where
  /-- R25. -/
  life            : Life
  /-- R21. The target's `mcuHalted` is another field: the two may differ (R37, U14). -/
  haltedFlag      : Bool
  /-- R22. -/
  debugAutoEnable : Bool
  /-- R26; none until the first request is accepted (R39). -/
  latches         : Option Latches
  /-- R28. -/
  phase           : Phase
  /-- R30. -/
  autoTaken       : Bool
  /-- R31. -/
  bracketOpen     : Bool
  /-- R32. -/
  result          : List Byte
  /-- R32. -/
  pendingError    : Option Err
  /-- The bus trace, oldest event first (R14). -/
  trace           : List Event
  /-- The responses, oldest first (R14). -/
  responses       : List Response
  /-- R38. -/
  target          : Target
  /-- The OPEN parameters, never written (R7, log 9). -/
  cfg             : Params
  /-- What the host does next, first act first (log 4). -/
  host            : List HostAct
  /-- The fates of the coming transactions; when the list is used up the reference device answers (log 7). -/
  oracle          : List Fate
  /-- What the MCU writes before each coming event if it runs; when the list is used up it writes nothing (log 8). -/
  mcu             : List (List (Addr16 × Byte))
deriving DecidableEq, Repr

/-- Why a step stops with a fault. -/
inductive Fault where
  /-- Raised by `step` in a state left by a transaction that never returned: the engine is stuck, no later event and no response
  exist (R170, U1, log 14). Safe: the hardware has no step there either. -/
  | stuck
  /-- Raised by a range request that finds no latch loaded: reading a latch before a request is accepted is a fault of the model
  (R39). Safe: no request reaches it, since acceptance loads the latches first. -/
  | latchUnloaded
deriving DecidableEq, Repr

/-- Why a request or a frame is refused. -/
inductive Refusal where
  /-- An instruction without a meaning yet, raised by `exec`. Safe. -/
  | notModelled (mnemonic : String)
  /-- A request the interface refuses (R91, U6, log 21), raised by `step`: no step, no event. Safe. -/
  | malformed (e : DecodeError)
  /-- A request while the block is not Ready, or a frame of a dead block (R25, U19), raised by `exec`. Safe. -/
  | notReady (l : Life)
  /-- A frame the reference device gives no meaning (R72, U5), raised by the target. Safe: the engine emits none (R88). -/
  | unlistedFrame
deriving DecidableEq, Repr

/-- The target after reset. The spec gives no value for any of it (R38, U9): zero, false and empty are DESIGN CHOICE, unsafe
(log 5). -/
def Target.initial : Target :=
  { isp := [], ispPtr := 0, debugMode := false, mcuHalted := false, xdata := [], eeprom := [], dataOut := none,
    readSetup := none, owedRead := 0, lastWrite := none, owedWrite := 0, owedMem := 0, owedCmd := 0, draws := 0 }

/-- The machine right after reset, that is after construction has succeeded (R186, R187, R39), with nothing placed. -/
def State.reset : State :=
  { life := .ready, haltedFlag := haltedReset, debugAutoEnable := autoReset, latches := none, phase := .idle,
    autoTaken := false, bracketOpen := false, result := [], pendingError := none, trace := [], responses := [],
    target := Target.initial, cfg := Config.params, host := [], oracle := [], mcu := [] }

end Sys2Proof.Machine
end

