-- ==== Sys2Proof/Machine/Ops.lean ====
section
/-! DEFINITION. The named operations over memory, target, request latches and error state: one byte of memory read and written,
the answer of an operation in progress (`Res`), accepting a request (R25, R26), answering it, and raising an error (R162, R163). -/

namespace Sys2Proof.Machine

/-- One byte read: `MemRead` (R11). -/
def Memory.read : Memory → Nat → Byte
  | [], _ => Memory.blank
  | (k, b) :: m, a => if k = a then b else Memory.read m a

/-- One byte written: `MemWrite` (R11). The canonical form is kept: writing `Memory.blank` removes the entry. -/
def Memory.write : Memory → Nat → Byte → Memory
  | [], a, v => if v = Memory.blank then [] else [(a, v)]
  | (k, b) :: m, a, v =>
    if a < k then (if v = Memory.blank then (k, b) :: m else (a, v) :: (k, b) :: m)
    else if a = k then (if v = Memory.blank then m else (a, v) :: m)
    else (k, b) :: Memory.write m a v

/-- The canonical form: addresses strictly rising, no byte equal to `Memory.blank`. -/
abbrev Memory.wf (m : Memory) : Prop :=
  m.Pairwise (fun x y => x.1 < y.1) ∧ ∀ c ∈ m, c.2 ≠ Memory.blank

/-- Every listed address lies below `n`. -/
abbrev Memory.below (m : Memory) (n : Nat) : Prop := ∀ c ∈ m, c.1 < n

/-- The key of an EEPROM location (target, address) in the one EEPROM memory (R43, log 28). -/
def eepromKey (t : Byte) (a : Addr16) : Nat := t.toNat * 65536 + a.toNat

/-- One byte of the target's storage. -/
def Target.peek (t : Target) : Loc → Byte
  | .isp a => Memory.read t.isp a.toNat
  | .xdata a => Memory.read t.xdata a.toNat
  | .eeprom g a => Memory.read t.eeprom (eepromKey g a)

/-- One byte of the target's storage written. -/
def Target.poke (t : Target) (l : Loc) (v : Byte) : Target :=
  match l with
  | .isp a => { t with isp := Memory.write t.isp a.toNat v }
  | .xdata a => { t with xdata := Memory.write t.xdata a.toNat v }
  | .eeprom g a => { t with eeprom := Memory.write t.eeprom (eepromKey g a) v }

/-- A list of XDATA writes, in order: one turn of the MCU (R73). -/
def Target.pokeXdata (t : Target) (ws : List (Addr16 × Byte)) : Target :=
  ws.foldl (fun t w => t.poke (.xdata w.1) w.2) t

/-- The memory some writes make out of an empty one, so that a drawn memory is canonical. -/
def Memory.ofWrites (ws : List (Nat × Byte)) : Memory := ws.foldl (fun m w => Memory.write m w.1 w.2) []

/-- Every target variable of R38 takes a free value (R67, U4; R71, U12). What was set up or written before is part of the draw; the
delays owed to the next DBG frame stay owed, since no rule ends them but time (R71, log 11). -/
def Target.redraw (t : Target) : Target :=
  let f := Config.freeTarget t.draws
  { isp := Memory.ofWrites (f.isp.map fun w => (w.1.toNat, w.2))
    ispPtr := f.ispPtr
    debugMode := f.debugMode
    mcuHalted := f.mcuHalted
    xdata := Memory.ofWrites (f.xdata.map fun w => (w.1.toNat, w.2))
    eeprom := Memory.ofWrites (f.eeprom.map fun w => (eepromKey w.1.1 w.1.2, w.2))
    dataOut := f.dataOut
    readSetup := none
    owedRead := 0
    lastWrite := none
    owedWrite := 0
    owedMem := t.owedMem
    owedCmd := t.owedCmd
    draws := t.draws + 1 }

/-- The memories are canonical and stay inside their spaces (R41, R42, R43). -/
abbrev Target.wf (t : Target) : Prop :=
  (Memory.wf t.isp ∧ Memory.below t.isp 256) ∧
  (Memory.wf t.xdata ∧ Memory.below t.xdata 65536) ∧
  (Memory.wf t.eeprom ∧ Memory.below t.eeprom 16777216)

/-- How an operation of the engine ends (R11, R12): with a value, with an error raised, inside a transaction that never returns,
or with one of the model's own stops. The state an error or a hang leaves is kept: errors are precise (R164). -/
inductive Res (α : Type) where
  | ok (a : α) (s : State)
  | raised (e : Err) (s : State)
  | hung (s : State)
  | fault (f : Fault)
  | refused (r : Refusal)
deriving DecidableEq, Repr

/-- First one operation, then, if it completes, the next (R11). -/
def Res.bind {α β : Type} (r : Res α) (k : α → State → Res β) : Res β :=
  match r with
  | .ok a s => k a s
  | .raised e s => .raised e s
  | .hung s => .hung s
  | .fault f => .fault f
  | .refused q => .refused q

/-- `raise E` (R11). -/
def raise {α : Type} (e : Err) (s : State) : Res α := .raised e s

/-- Accepting a request (R25, R26, R27): Ready becomes Busy and the latches are loaded; the per-request latches start empty (R30,
R31, R32). The sequencer leaves Idle when the request's own sequence says so (R132, R133; log 16). -/
def State.accept (s : State) (q : Latches) : State :=
  { s with life := .busy, latches := some q, phase := .idle, autoTaken := false, bracketOpen := false, result := [],
           pendingError := none }

/-- Giving the response (R25, R133 last row): Busy becomes Ready, the sequencer goes to Idle and the per-request latches are
cleared (R30, R163, log 18). -/
def State.respond (s : State) (r : Response) : State :=
  { s with life := .ready, phase := .idle, autoTaken := false, bracketOpen := false, result := [], pendingError := none,
           responses := s.responses ++ [r] }

/-- Taking an error to the host: the block's one exception entry (R162, R163, R169). There is no return from it (R171). -/
def State.takeError (s : State) (e : Err) : State := s.respond (.error e)

/-- The numeric code of an error kind (R160, D20). -/
def Err.code : Err → Nat
  | .deviceUnreachable => 1
  | .preconditionFailed _ => 2
  | .invalidState _ => 3
  | .rangeError _ _ _ _ => 4
  | .invalidPayload => 5
  | .transportError _ => 6

/-- The numeric code of a response: 0 for success (R160). -/
def Response.code : Response → Nat
  | .ok _ => 0
  | .error e => e.code

/-- The end of a request: a result, an error taken to the host, or a state stuck in a transaction that never returned (R170). -/
def Res.finish : Res Result → Host.Outcome State Fault Refusal
  | .ok r s => .next (s.respond (.ok r))
  | .raised e s => .next (s.takeError e)
  | .hung s => .next s
  | .fault f => .fault f
  | .refused q => .refused q

/-- Releasing the bus handle (R189): no bus event, the target untouched; what is left waits for a new construction. -/
def State.release (s : State) : State :=
  { s with life := .unbuilt, haltedFlag := haltedReset, debugAutoEnable := autoReset, latches := none, phase := .idle,
           autoTaken := false, bracketOpen := false, result := [], pendingError := none }

end Sys2Proof.Machine
end

