-- ==== Sys2Proof/Machine/Device.lean ====
section
/-! DEFINITION. The reference device (R65 to R73): how the target answers one transaction. Not a claim about the chip (D25).
`none` is a frame the reference device gives no meaning (R72, log 29). -/

namespace Sys2Proof.Machine

/-- A write to the ISP sub-device (R66): a pointer, a register write, or the reset command (R67). -/
def Target.ispFrame (t : Target) : List Byte → Option Target
  | [a] => some { t with ispPtr := a }
  | [a, v] =>
      if a = ispResetReg ∧ v = ispResetVal then some t.redraw
      else some ({ t with ispPtr := a }.poke (.isp a) v)
  | _ => none

/-- A read of the ISP sub-device (R66): a write phase of one or two bytes first, then the pointed register n times. -/
def Target.ispRead (t : Target) (ws : List Byte) (n : Nat) : Option (Answer × Target) :=
  let answer (t : Target) := (Answer.ok (List.replicate n (t.peek (.isp t.ispPtr))), t)
  match ws with
  | [a] => (t.ispFrame [a]).map answer
  | [a, v] => (t.ispFrame [a, v]).map answer
  | _ => some (answer t)

/-- A write to the DDC sub-device (R68): the unlock sequence turns debug mode on, any other frame does nothing. -/
def Target.ddcFrame (t : Target) (p : Params) (bs : List Byte) : Target :=
  if bs = p.enable.bytes then { t with debugMode := true, owedCmd := max t.owedCmd tMode } else t

/-- Any bytes, drawn anew (R72, U11). -/
def Target.freeRead (t : Target) (n : Nat) : Answer × Target :=
  (.ok (List.replicate n (Config.freeByte t.draws)), { t with draws := t.draws + 1 })

/-- A frame arrives while the delay of the last XDATA or EEPROM write still runs: that write's effect is unspecified, so its location
holds any byte, and nothing else changes (R71, U12, log 13). -/
def Target.unsettle (t : Target) : Target :=
  match t.lastWrite with
  | some l => if 0 < t.owedWrite then { t.poke l (Config.freeByte t.draws) with owedWrite := 0, draws := t.draws + 1 } else t
  | none => t

/-- The delay a halt-control or a mode frame owes to the next DBG frame; none for another frame (R71). -/
def frameDelay (p : Params) (bs : List Byte) : Nat :=
  if bs = p.disable.bytes then tMode
  else if bs = [cmdHalt, haltVal] ∨ bs = [cmdHalt, runVal] then tHalt
  else 0

/-- The most a debug memory command can owe to the next DBG frame: its settle delays with the MCU running (R71). -/
def memDelay : List Byte → Nat
  | [c, _, _] => if c = cmdXdataRd then tSettle else 0
  | [c, _, _, _] => if c = cmdXdataWr then tSettle else 0
  | [c, _, _, v, _] => if c = cmdEeRd ∧ v = eeRdPad ∨ c = cmdEeWr then tEeprom + tSettle else 0
  | _ => 0

/-- No DBG frame has to wait: every settle delay that a frame requires has passed (R71, U12). -/
abbrev Target.InTime (t : Target) : Prop := t.owedCmd = 0 ∧ t.owedMem = 0

/-- A DBG frame sent before a required settle delay has passed (R71, U12): any outcome, any effect (log 13). The delay goes on running,
and the frame's own delays (`cmd`, `mem`) start too. -/
def Target.tooEarly (t : Target) (cmd mem : Nat) : Answer × Target :=
  (Config.freeAnswer t.draws, { t.redraw with owedCmd := max t.owedCmd cmd, owedMem := max t.owedMem mem })

/-- The delay an XDATA access needs: none while the MCU is halted (R71). -/
def Target.xdataSettle (t : Target) : Nat := if t.mcuHalted then 0 else tSettle

/-- The delay an EEPROM access needs (R71). -/
def Target.eepromSettle (t : Target) : Nat := tEeprom + if t.mcuHalted then 0 else tSettle

/-- A read setup (R70, R72): the location is remembered and its byte put out; the read must wait for `ms` (R71), and so must every
DBG frame (U12). -/
def Target.setup (t : Target) (l : Loc) (ms : Nat) : Target :=
  { t with dataOut := some (t.peek l), readSetup := some l, owedRead := ms, owedMem := ms }

/-- A debug write (R70, R72): the byte is stored, and the next frame must wait for `ms` or the write's effect is unspecified (R71); so
must every DBG frame, or its own effect and outcome are (U12). -/
def Target.store (t : Target) (l : Loc) (v : Byte) (ms : Nat) : Target :=
  { t.poke l v with lastWrite := some l, owedWrite := ms, owedMem := ms }

/-- A command of the debug interface, debug mode on and in time (R69, R70, R72). -/
def Target.dbgCommand (t : Target) : List Byte → Option Target
  | [c, h] =>
      if c = cmdHalt ∧ h = haltVal then some { t with mcuHalted := true, owedCmd := tHalt }
      else if c = cmdHalt ∧ h = runVal then some { t with mcuHalted := false, owedCmd := tHalt }
      else none
  | [c, lo, hi] => if c = cmdXdataRd then some (t.setup (.xdata (joinAddr hi lo)) t.xdataSettle) else none
  | [c, lo, hi, v] =>
      if c = cmdXdataWr then some (t.store (.xdata (joinAddr hi lo)) v t.xdataSettle) else none
  | [c, lo, g, v, hi] =>
      if c = cmdEeRd ∧ v = eeRdPad then some (t.setup (.eeprom g (joinAddr hi lo)) t.eepromSettle)
      else if c = cmdEeWr then some (t.store (.eeprom g (joinAddr hi lo)) v t.eepromSettle)
      else none
  | _ => none

/-- A write to the DBG sub-device (R68, R87): too early, not answering, the disable sequence (log 30), or a command. -/
def Target.dbgFrame (t : Target) (p : Params) (bs : List Byte) : Option (Answer × Target) :=
  if ¬t.InTime then some (t.tooEarly (frameDelay p bs) (memDelay bs))
  else if !t.debugMode then some (.err .unreachable, t)
  else if bs = p.disable.bytes then some (.ok [], { t with debugMode := false, owedCmd := tMode })
  else (t.dbgCommand bs).map fun t => (.ok [], t)

/-- The byte of a read of DBG (R70, R71, R72): the value the location holds now if the read is compliant, else any byte. Where the
setup succeeded, a read that is not compliant is `tooEarly` (U12); here it is one whose setup failed and yet took effect (log 13). -/
def Target.dbgData (t : Target) (n : Nat) : Answer × Target :=
  match t.readSetup, t.dataOut with
  | some l, _ =>
      if 0 < t.owedRead then t.freeRead n
      else (.ok (List.replicate n (t.peek l)), { t with dataOut := some (t.peek l) })
  | none, some b => (.ok (List.replicate n b), t)
  | none, none => t.freeRead n

/-- A read of the DBG sub-device (R68, R70, R72). A write phase other than the two of R76 is refused. DESIGN CHOICE: R70 and R76 give the
read length 1 only; a read of another length with a listed write phase, which the engine never emits (R88), gets that many copies of
the byte (log 29). -/
def Target.dbgRead (t : Target) (ws : List Byte) (n : Nat) : Option (Answer × Target) :=
  if ¬t.InTime then some (t.tooEarly 0 0)
  else if !t.debugMode then some (.err .unreachable, t)
  else if ws = dbgReadPrefix ∨ ws = dbgProbeWs then some (t.dbgData n)
  else none

/-- The sub-device a transaction is for answers it. -/
def Target.reply (t : Target) (p : Params) : Txn → Option (Answer × Target)
  | .w .isp bs => (t.ispFrame bs).map fun t => (.ok [], t)
  | .w .ddc bs => some (.ok [], t.ddcFrame p bs)
  | .w .dbg bs => t.dbgFrame p bs
  | .wr .isp ws n => t.ispRead ws n
  | .wr .ddc _ n => some (t.freeRead n)
  | .wr .dbg ws n => t.dbgRead ws n

/-- The reference device answers one transaction. Its frame ends the time a write had to settle, whatever sub-device it is for
(R71). -/
def Target.answer (t : Target) (p : Params) (x : Txn) : Option (Answer × Target) := t.unsettle.reply p x

/-- The target `g` after a transaction on `t` of which the transport reports the outcome `a`. DEDUCED: a memory command reported as failed
requires no delay, since R198 asks for delays only on the paths that do not raise, and yet the engine always complies (U12, log 13).
Its delay still decides what its write or its read is worth (R71). -/
def Target.reported (g t : Target) : Answer → Target
  | .ok _ => g
  | .err _ => { g with owedMem := t.owedMem }
  | .hang => { g with owedMem := t.owedMem }

/-- Time passes: owed delays are paid (R71, R196). -/
def Target.wait (t : Target) (ms : Nat) : Target :=
  { t with owedRead := t.owedRead - ms, owedWrite := t.owedWrite - ms, owedMem := t.owedMem - ms, owedCmd := t.owedCmd - ms }

/-- One turn of the MCU (R73): it writes XDATA if it runs, nothing while it is halted. -/
def Target.mcuTurn (t : Target) (ws : List (Addr16 × Byte)) : Target := if t.mcuHalted then t else t.pokeXdata ws

end Sys2Proof.Machine
end

