-- ==== Sys2Proof/Machine/Bus.lean ====
section
/-! DEFINITION. The bus port (R12, R13): the two transport primitives and the delay. Before each event the MCU takes its turn
(R73); each call appends one event to the trace (R14). -/

namespace Sys2Proof.Machine

/-- The MCU agent acts once: the next entry of its list, if it runs (R73, log 8). -/
def State.mcuActs (s : State) : State :=
  { s with mcu := s.mcu.tail, target := s.target.mcuTurn (s.mcu.headD []) }

/-- The outcome as the engine takes it: a write returns no bytes, and a read of the wrong number of bytes is
`TransportError(Other)` (R13, D31, U17, log 25). -/
def outcomeOf : Txn → Answer → Answer
  | .w _ _, .ok _ => .ok []
  | .wr _ _ n, .ok rs => if rs.length = n then .ok rs else .err .other
  | _, .err k => .err k
  | _, .hang => .hang

/-- The event of a transaction with its outcome (R12). -/
def eventOf : Txn → Answer → Event
  | .w d bs, a => .w d bs a
  | .wr d ws n, a => .wr d ws n a

/-- An event is appended to the trace, the target being `g` after it (R12, R14). -/
def State.record (s : State) (e : Event) (g : Target) : State := { s with target := g, trace := s.trace ++ [e] }

/-- A transaction never returns: the engine is stuck, Busy for ever (R170). -/
def State.stuck (s : State) : State := { s with life := .busy }

/-- A transaction ends with outcome `a`, the target being `g`: then the engine gets the bytes, the error, or nothing ever (R12,
R165, R170). -/
def State.conclude (s : State) (t : Txn) (a : Answer) (g : Target) : Res (List Byte) :=
  match a with
  | .ok rs => .ok rs (s.record (eventOf t (.ok rs)) g)
  | .err k => raise (.transportError k) (s.record (eventOf t (.err k)) g)
  | .hang => .hung (s.record (eventOf t .hang) g).stuck

/-- A transaction with a given fate: the reference device answers it, or the transport reports what it likes, with or without an
effect on the target (R12, R65, R164). -/
def transactAs (f : Fate) (t : Txn) (s : State) : Res (List Byte) :=
  match f with
  | .override a false => s.conclude t (outcomeOf t a) s.target
  | .override a true =>
      match s.target.answer s.cfg t with
      | some (_, g) => s.conclude t (outcomeOf t a) (g.reported s.target (outcomeOf t a))
      | none => .refused .unlistedFrame
  | .device =>
      match s.target.answer s.cfg t with
      | some (a, g) => s.conclude t (outcomeOf t a) g
      | none => .refused .unlistedFrame

/-- The next fate is taken off the list (log 7). -/
def State.dropFate (s : State) : State := { s with oracle := s.oracle.tail }

/-- The bus agent acts (R15): it answers the transaction the engine has issued, with the next fate. -/
def State.busActs (s : State) (t : Txn) : Res (List Byte) := transactAs (s.oracle.headD .device) t s.dropFate

/-- A delay of the engine takes place (R12, R196). -/
def State.slept (s : State) (ms : Nat) : State := s.record (.d ms) (s.target.wait ms)

/-- `BusW` and `BusWR` (R12): one indivisible transaction (R51), issued once and never repeated (R54), after the MCU's turn. -/
def transact (t : Txn) (s : State) : Res (List Byte) := s.mcuActs.busActs t

/-- `Sleep(ms)` (R12, R196): it always completes. The MCU takes its turn first. -/
def sleep (ms : Nat) (s : State) : State := s.mcuActs.slept ms

/-- A frame as an instruction: the engine issues one transaction (R76). Its outcome is the last event of the trace; no request is
answered by it. A dead block issues none (R25, R186). -/
def issue (t : Txn) (s : State) : Host.Outcome State Fault Refusal :=
  if s.life = .dead then .refused (.notReady s.life) else
  match transact t s with
  | .ok _ s => .next s
  | .raised _ s => .next s
  | .hung s => .next s
  | .fault f => .fault f
  | .refused q => .refused q

end Sys2Proof.Machine
end

