-- ==== Sys2Proof/Machine/Program.lean ====
section
/-! DEFINITION. The pseudocode of R11 as programs of the engine: what the engine does up to the end of a request, one bus
primitive of R12 at a time. A program runs whole (`Prog.run`), or step by step beside the other agents (Sys2Proof/Machine/Agents.lean). -/

namespace Sys2Proof.Machine

/-- A program of the engine: it ends with a value, with an error raised or in a fault of the model; or it issues a transaction, whose
bytes or error its rest gets; or it sleeps; or it reads or writes the engine's own state, which no other agent sees. -/
inductive Prog (α : Type) where
  | ret (a : α)
  | throw (e : Err)
  | fault (f : Fault)
  | bus (t : Txn) (rest : Except Err (List Byte) → Prog α)
  | sleep (ms : Nat) (rest : Prog α)
  | get (rest : State → Prog α)
  | set (f : State → State) (rest : Prog α)

/-- First one program, then, if it completes, the next (R11). -/
def Prog.bind {α β : Type} : Prog α → (α → Prog β) → Prog β
  | .ret a, k => k a
  | .throw e, _ => .throw e
  | .fault f, _ => .fault f
  | .bus t r, k => .bus t fun o => (r o).bind k
  | .sleep ms r, k => .sleep ms (r.bind k)
  | .get r, k => .get fun s => (r s).bind k
  | .set f r, k => .set f (r.bind k)

/-- A program whose error is caught (R11: the `try` of a `finally`). -/
def Prog.attempt {α : Type} : Prog α → Prog (Except Err α)
  | .ret a => .ret (.ok a)
  | .throw e => .ret (.error e)
  | .fault f => .fault f
  | .bus t r => .bus t fun o => (r o).attempt
  | .sleep ms r => .sleep ms r.attempt
  | .get r => .get fun s => (r s).attempt
  | .set f r => .set f r.attempt

/-- `BusW` or `BusWR` (R12): a failure is raised. -/
def bus (t : Txn) : Prog (List Byte) :=
  .bus t fun
    | .ok rs => .ret rs
    | .error e => .throw e

/-- `Sleep(ms)` (R12). -/
def delay (ms : Nat) : Prog Unit := .sleep ms (.ret ())

/-- `x <- v` on the engine's state (R11). -/
def assign (f : State → State) : Prog Unit := .set f (.ret ())

/-- A program run to its end, each primitive an indivisible action of the other agents in between (R12, R15). -/
def Prog.run {α : Type} : Prog α → State → Res α
  | .ret a, s => .ok a s
  | .throw e, s => raise e s
  | .fault f, _ => .fault f
  | .bus t r, s =>
    match transact t s with
    | .ok rs s => (r (.ok rs)).run s
    | .raised e s => (r (.error e)).run s
    | .hung s => .hung s
    | .fault f => .fault f
    | .refused q => .refused q
  | .sleep ms r, s => r.run (Machine.sleep ms s)
  | .get r, s => (r s).run s
  | .set f r, s => r.run (f s)

/-- A request: refused unless the block is Ready (R25, R58, U19), else accepted, run and answered. -/
def serve (q : Latches) (body : Prog Result) (s : State) : Host.Outcome State Fault Refusal :=
  if s.life = .ready then (body.run (s.accept q)).finish else .refused (.notReady s.life)

/-- An operation on the request latches (R26): reading one before a request is accepted is a fault of the model (R39). -/
def withLatches (k : Latches → Prog Result) : Prog Result := .get fun s =>
  match s.latches with
  | some q => k q
  | none => .fault .latchUnloaded

end Sys2Proof.Machine
end

