-- ==== Sys2Proof/Machine/Construct.lean ====
section
/-! DEFINITION. Construction, the block's reset (R186). -/

namespace Sys2Proof.Machine

/-- The block constructed (R39, R187): Ready, both flags at their reset value, no latch loaded; the success is a
response (log 27). -/
def State.built (s : State) : State :=
  { s with life := .ready, haltedFlag := haltedReset, debugAutoEnable := autoReset, latches := none, phase := .idle,
           autoTaken := false, bracketOpen := false, result := [], pendingError := none,
           responses := s.responses ++ [.ok .void] }

/-- A failed construction is fatal (R25, R186). -/
def State.die (s : State) (e : Err) : State := { s with life := .dead, responses := s.responses ++ [.error e] }

/-- `construct` (R186): one probe read of the ISP address, its byte discarded. `Unreachable` becomes `DeviceUnreachable` (R165). -/
def construction : Prog Result :=
  .bus txCtorProbe fun
    | .ok _ => .ret .void
    | .error (.transportError .unreachable) => .throw .deviceUnreachable
    | .error e => .throw e

/-- Construction, run whole. -/
def construct (s : State) : Host.Outcome State Fault Refusal :=
  match construction.run s with
  | .ok _ s => .next s.built
  | .raised e s => .next (s.die e)
  | .hung s => .next s
  | .fault f => .fault f
  | .refused q => .refused q

end Sys2Proof.Machine
end

