-- ==== Sys2Proof/Machine/Flags.lean ====
section
/-! DEFINITION. The block's flags (R33): the two persistent ones and the two per-request latches, each with the one operation
that writes it. There are no condition codes. -/

namespace Sys2Proof.Machine

/-- `haltedFlag <- on`, by halt control only (R21, R126). -/
def State.setHalted (s : State) (on : Bool) : State := { s with haltedFlag := on }

/-- `debugAutoEnable <- on`, by `setDebugAutoEnable` only (R22, R120). -/
def State.setAuto (s : State) (on : Bool) : State := { s with debugAutoEnable := on }

/-- `autoTaken <- debugAutoEnable`, in ModeCheck of a debug-protected operation (R30, R122). -/
def State.latchAuto (s : State) : State := { s with autoTaken := s.debugAutoEnable }

/-- `bracketOpen <- true`, once HaltOpen has completed (R31). -/
def State.markOpen (s : State) : State := { s with bracketOpen := true }

/-- `bracketOpen <- false`, when HaltClose is entered (R31). -/
def State.markClosed (s : State) : State := { s with bracketOpen := false }

/-- A read transfer appends its byte (R32, R53). -/
def State.push (s : State) (b : Byte) : State := { s with result := s.result ++ [b] }

/-- The error that propagates while HaltClose runs (R32, R133). -/
def State.pend (s : State) (e : Err) : State := { s with pendingError := some e }

end Sys2Proof.Machine
end

