-- ==== Sys2Proof/Machine/Validator.lean ====
section
/-! DEFINITION. The Address-Space Validator (40_validator.md) and the operands of a range request. -/

namespace Sys2Proof.Machine

/-- The closed window `[min, max]` of a space (R105). -/
def windowOf : Space → Int × Int
  | .isp => (0x00, 0xff)
  | .xdata => (0x0000, 0xffff)
  | .eeprom => (0x0000, 0xffff)

/-- `validate` (R106, R108), in integers that never wrap (R10): none is Ok. -/
def validate (sp : Space) (start length : Int) : Option Err :=
  let lo := (windowOf sp).1
  let hi := (windowOf sp).2
  let stop := start + length - 1
  if start < lo then some (.rangeError sp .start start lo)
  else if start > hi then some (.rangeError sp .start start hi)
  else if stop < lo then some (.rangeError sp .stop stop lo)
  else if stop > hi then some (.rangeError sp .stop stop hi)
  else none

/-- The address-field width of a dump's printout (R159): informational, no rule depends on it. -/
def dumpAddrWidth : Space → Nat
  | .isp => 1
  | .xdata => 2
  | .eeprom => 4

/-- What a range request asks for, read from the latches: the arguments of `rangeOp` (R125). -/
structure Plan where
  space   : Space
  write   : Bool
  start   : Int
  length  : Int
  payload : Option (List Byte)
  halt    : Bool
  target  : Byte
deriving DecidableEq, Repr

/-- The length a request validates and counts with (R109): the payload's size, the dump length (R156), or the request's. -/
def Latches.rangeLength (q : Latches) : Int :=
  if q.op.isWrite then (q.payload.getD []).length
  else if q.op.isDump then dumpLength q.start q.length q.last
  else q.length.getD readLenDefault

/-- The arguments of `rangeOp`; none for a request with no space. -/
def Latches.plan (q : Latches) : Option Plan :=
  q.space.map fun sp =>
    { space := sp, write := q.op.isWrite, start := q.start, length := q.rangeLength, payload := q.payload, halt := q.halt,
      target := q.target }

/-- The transfer count n (R107). -/
def Plan.count (p : Plan) : Nat := transferCount p.length

/-- The halt bracket is used exactly on XDATA and EEPROM with `halt` (R125, R127). -/
def Plan.bracket (p : Plan) : Bool := p.space != .isp && p.halt

/-- The address of transfer i (R28, R86). -/
def Plan.addr (p : Plan) (i : Nat) : Int := p.start + i

/-- `payload[i]` (R86). -/
def Plan.value (p : Plan) (i : Nat) : Byte := (p.payload.getD []).getD i 0

end Sys2Proof.Machine
end

