-- ==== Sys2Proof/Machine/Position.lean ====
section
/-! DEFINITION. The sequencer position (R28, R29) and its transition table (R133). -/

namespace Sys2Proof.Machine

/-- What the transition table looks at (R133): the policy taken, the bracket asked for, the transfer count, the bracket open, an
error pending. -/
structure SeqFacts where
  auto    : Bool
  bracket : Bool
  n       : Nat
  isOpen  : Bool
  pending : Bool
deriving DecidableEq, Repr

/-- Where a request goes when its last bus action is done: `AutoDisable` if `autoTaken`, else `Respond` (R133). -/
def SeqFacts.tail (f : SeqFacts) : Phase := if f.auto then .autoDisable else .respond

/-- The transition table (R133): the phase after `ph` when its step completes (`passed`) or raises. -/
def nextPhase (f : SeqFacts) (passed : Bool) : Phase → Phase
  | .idle => .modeCheck
  | .modeCheck => if !passed then .respond else if f.auto then .autoEnable else .validate
  | .autoEnable => if passed then .validate else .respond
  | .validate =>
      if !passed then .respond
      else if f.bracket then .haltOpen
      else if 0 < f.n then .transfer 0
      else f.tail
  | .haltOpen => if !passed then .respond else if 0 < f.n then .transfer 0 else .haltClose
  | .transfer i =>
      if !passed then (if f.isOpen then .haltClose else .respond)
      else if i + 1 < f.n then .transfer (i + 1)
      else if f.isOpen then .haltClose
      else f.tail
  | .haltClose => if !passed || f.pending then .respond else f.tail
  | .autoDisable => .respond
  | .respond => .idle

/-- The facts of a state in a request with a given bracket and transfer count. -/
def State.facts (s : State) (bracket : Bool) (n : Nat) : SeqFacts :=
  { auto := s.autoTaken, bracket := bracket, n := n, isOpen := s.bracketOpen, pending := s.pendingError.isSome }

/-- The sequencer moves on by the table. -/
def State.move (s : State) (bracket : Bool) (n : Nat) (passed : Bool) : State :=
  { s with phase := nextPhase (s.facts bracket n) passed s.phase }

/-- The sequencer is put at a phase, where a request that is no range request has one (R131; log 16). -/
def State.place (s : State) (ph : Phase) : State := { s with phase := ph }

end Sys2Proof.Machine
end

