-- ==== Sys2Proof/Machine/ModeGate.lean ====
section
/-! DEFINITION. The Mode Gate (41_mode_gate.md): the queries, the setters and the guards, each as its rule's pseudocode. Neither
mode is cached: every query is a transaction (R23, R24). -/

namespace Sys2Proof.Machine

/-- `queryIspEnabled` (R112): bit 7 of the byte read; bits 6:0 ignored. -/
def queryIspEnabled : Prog Bool := (bus txIspQuery).bind fun rs => .ret ((rs.headD 0).getLsbD 7)

/-- `setIspEnabled(on, force)` (R113, R116). -/
def setIspEnabled (on force : Bool) : Prog Unit :=
  let write : Prog Unit := (bus (txIspCtrl on)).bind fun _ => .ret ()
  if force then write else queryIspEnabled.bind fun b => if b = on then .ret () else write

/-- `queryDebugEnabled` (R114, R115): `Unreachable` is the answer false, any success true, every other error propagates. -/
def queryDebugEnabled : Prog Bool :=
  .bus txDbgProbe fun
    | .ok _ => .ret true
    | .error (.transportError .unreachable) => .ret false
    | .error e => .throw e

/-- The frame of `setDebugEnabled` (R117). -/
def txDebug (on : Bool) (p : Params) : Txn := if on then txDbgEn p else txDbgDis p

/-- `setDebugEnabled(on, force)` (R116, R117, R118). -/
def setDebugEnabled (on force : Bool) : Prog Unit :=
  let write : Prog Unit := .get fun s =>
    if !on && s.haltedFlag then .throw (.invalidState .disableWhileHalted)
    else (delay tMode).bind fun _ => (bus (txDebug on s.cfg)).bind fun _ => delay tMode
  if force then write else queryDebugEnabled.bind fun b => if b = on then .ret () else write

/-- `debugGuardEnter` (R122): the policy flag alone chooses the path. -/
def debugGuardEnter : Prog Unit :=
  (assign State.latchAuto).bind fun _ => .get fun s =>
  if s.autoTaken then (assign fun s => s.move false 0 true).bind fun _ => setDebugEnabled true false
  else queryDebugEnabled.bind fun b => if b then .ret () else .throw (.preconditionFailed .debug)

/-- `debugGuardExit` (R122). -/
def debugGuardExit : Prog Unit := .get fun s => if s.autoTaken then setDebugEnabled false false else .ret ()

/-- `ispGuard` (R123). -/
def ispGuard : Prog Unit := queryIspEnabled.bind fun b => if b then .ret () else .throw (.preconditionFailed .isp)

end Sys2Proof.Machine
end

