-- ==== Sys2Proof/Machine/Transfers.lean ====
section
/-! DEFINITION. The per-address transfers of the three spaces (R138, R140, R144, R146, R150, R152). Each moves one byte (R50). -/

namespace Sys2Proof.Machine

/-- The extra settle delay of a debug transfer (R147, R153): the request's `halt` operand decides, not `haltedFlag`
(R134, C4). -/
def settleUnlessHalt (halt : Bool) : Prog Unit := if halt then .ret () else delay tSettle

/-- ISP read transfer (R138). -/
def readIsp (a : Int) : Prog Byte :=
  (bus (txIspPtr (isp8 a))).bind fun _ =>
  (bus txIspData).bind fun rs => .ret (rs.headD 0)

/-- ISP write transfer (R140). -/
def writeIsp (a : Int) (v : Byte) : Prog Unit := (bus (txIspWr (isp8 a) v)).bind fun _ => .ret ()

/-- XDATA read transfer (R144). -/
def readXdata (a : Int) (halt : Bool) : Prog Byte :=
  (bus (txXdataRd (addr16 a))).bind fun _ =>
  (settleUnlessHalt halt).bind fun _ =>
  (bus txDbgData).bind fun rs => .ret (rs.headD 0)

/-- XDATA write transfer (R146). -/
def writeXdata (a : Int) (v : Byte) (halt : Bool) : Prog Unit :=
  (bus (txXdataWr (addr16 a) v)).bind fun _ => settleUnlessHalt halt

/-- EEPROM read transfer (R150, R153, R154). -/
def readEeprom (a : Int) (t : Byte) (halt : Bool) : Prog Byte :=
  (bus (txEeRd (addr16 a) t)).bind fun _ =>
  (delay tEeprom).bind fun _ =>
  (settleUnlessHalt halt).bind fun _ =>
  (bus txDbgData).bind fun rs => .ret (rs.headD 0)

/-- EEPROM write transfer (R152, R153). -/
def writeEeprom (a : Int) (t v : Byte) (halt : Bool) : Prog Unit :=
  (bus (txEeWr (addr16 a) t v)).bind fun _ =>
  (delay tEeprom).bind fun _ => settleUnlessHalt halt

/-- `readXfer` of the request's space (R125). -/
def readXfer (p : Plan) (a : Int) : Prog Byte :=
  match p.space with
  | .isp => readIsp a
  | .xdata => readXdata a p.halt
  | .eeprom => readEeprom a p.target p.halt

/-- `writeXfer` of the request's space (R125). -/
def writeXfer (p : Plan) (a : Int) (v : Byte) : Prog Unit :=
  match p.space with
  | .isp => writeIsp a v
  | .xdata => writeXdata a v p.halt
  | .eeprom => writeEeprom a p.target v p.halt

end Sys2Proof.Machine
end

