-- ==== Sys2Proof/Machine/Sequencer.lean ====
section
/-! DEFINITION. Halt control, the halt bracket and the range operation (42_sequencer.md), as the pseudocode of R125 and R126. The
sequencer position moves by the table of R133 as the phases go by. -/

namespace Sys2Proof.Machine

/-- Halt control (R126): the command, then the flag, then the delay (R135). -/
def haltCtl (on : Bool) : Prog Unit :=
  (bus (txHalt on)).bind fun _ => (assign fun s => s.setHalted on).bind fun _ => delay tHalt

/-- The sequencer moves on as the request's plan says (R133). -/
def Plan.move (p : Plan) (passed : Bool) (s : State) : State := s.move p.bracket p.count passed

/-- The same as a program: the phase's step has completed. -/
def Plan.advance (p : Plan) : Prog Unit := assign (p.move true)

/-- ModeCheck and AutoEnable: the guard of the space (R121). -/
def Plan.gate (p : Plan) : Prog Unit :=
  match p.space with
  | .isp => ispGuard
  | .xdata => debugGuardEnter
  | .eeprom => debugGuardEnter

/-- Validate: the payload check of a write, then the window check (R111, R106). -/
def Plan.check (p : Plan) : Prog Unit :=
  if p.write && p.payload.isNone then .throw .invalidPayload
  else match validate p.space p.start p.length with
    | some e => .throw e
    | none => .ret ()

/-- HaltOpen, if the bracket is used (R127, R128): `haltedFlag` is not consulted. -/
def Plan.haltOpen (p : Plan) : Prog Unit :=
  if p.bracket then
    (haltCtl true).bind fun _ => (assign State.markOpen).bind fun _ => p.advance
  else .ret ()

/-- Transfer i (R125): a read appends its byte, a write sends `payload[i]`. -/
def Plan.transfer (p : Plan) (i : Nat) : Prog Unit :=
  if p.write then writeXfer p (p.addr i) (p.value i)
  else (readXfer p (p.addr i)).bind fun b => assign fun s => s.push b

/-- `k` transfers from index `i` on, in ascending order (R29, R125). -/
def Plan.transfers (p : Plan) : Nat → Nat → Prog Unit
  | 0, _ => .ret ()
  | k + 1, i => (p.transfer i).bind fun _ => p.advance.bind fun _ => p.transfers k (i + 1)

/-- HaltClose (R129, R130): run, then the pending error, if any, propagates; an error of the close itself replaces it. -/
def Plan.haltClose (p : Plan) : Prog Unit :=
  (assign State.markClosed).bind fun _ =>
  (haltCtl false).bind fun _ =>
  p.advance.bind fun _ => .get fun s =>
  match s.pendingError with
  | some e => .throw e
  | none => .ret ()

/-- The `try` of the transfers and its `finally` (R11, R125, R129): an open bracket is closed whether they complete or raise. -/
def Plan.close (p : Plan) (body : Prog Unit) : Prog Unit :=
  body.attempt.bind fun
    | .ok _ => .get fun s => if s.bracketOpen then p.haltClose else .ret ()
    | .error e => .get fun s =>
      if s.bracketOpen then (assign fun s => p.move false (s.pend e)).bind fun _ => p.haltClose
      else (assign (p.move false)).bind fun _ => .throw e

/-- AutoDisable (R125): not for an ISP request. -/
def Plan.exit (p : Plan) : Prog Unit :=
  match p.space with
  | .isp => .ret ()
  | .xdata => debugGuardExit
  | .eeprom => debugGuardExit

/-- `rangeOp` (R125). -/
def Plan.program (p : Plan) : Prog Result :=
  p.advance.bind fun _ => p.gate.bind fun _ =>
  p.advance.bind fun _ => p.check.bind fun _ =>
  p.advance.bind fun _ => p.haltOpen.bind fun _ =>
  (p.close (p.transfers p.count 0)).bind fun _ =>
  p.exit.bind fun _ => .get fun s => .ret (if p.write then .void else .bytes s.result)

/-- A range request runs on the plan its latches hold (R26, R86, R125). -/
def rangeOp : Prog Result := withLatches fun q =>
  match q.plan with
  | some p => p.program
  | none => .fault .latchUnloaded

/-- The sequencer put at a phase, as a program. -/
def atPhase (ph : State → Phase) : Prog Unit := assign fun s => s.place (ph s)

/-- `haltMcu(on)` (R131). Its halt control stands at the phase of the same halt control in a range request (log 16). -/
def haltMcu (on : Bool) : Prog Result :=
  (atPhase fun _ => .modeCheck).bind fun _ => debugGuardEnter.bind fun _ =>
  (atPhase fun _ => if on then .haltOpen else .haltClose).bind fun _ => (haltCtl on).bind fun _ =>
  (atPhase fun s => if s.autoTaken then .autoDisable else .respond).bind fun _ => debugGuardExit.bind fun _ => .ret .void

end Sys2Proof.Machine
end

