-- ==== Sys2Proof/Machine/Dump.lean ====
section
/-! DEFINITION. Dump operations (46_dump.md): reads whose length comes from `end` or defaults to 16 (R156). -/

namespace Sys2Proof.Machine

/-- `isp.dump` (R157). -/
def execIspDump (start : Int) (length last : Option Int) (s : State) : Host.Outcome State Fault Refusal :=
  serve { op := .ispDump, space := some .isp, start := start, length := length, last := last } rangeOp s

/-- `xdata.dump` (R157). -/
def execXdataDump (start : Int) (length last : Option Int) (halt : Bool) (s : State) : Host.Outcome State Fault Refusal :=
  serve { op := .xdataDump, space := some .xdata, start := start, length := length, last := last, halt := halt } rangeOp s

/-- `eeprom.dump` (R157). -/
def execEepromDump (start : Int) (length last : Option Int) (target : Byte) (halt : Bool) (s : State) :
    Host.Outcome State Fault Refusal :=
  serve { op := .eepromDump, space := some .eeprom, start := start, length := length, last := last, halt := halt,
          target := target } rangeOp s

end Sys2Proof.Machine
end

