-- ==== Sys2Proof/Machine/EepromAccess.lean ====
section
/-! DEFINITION. Debug EEPROM indirect access (45_eeprom_access.md). -/

namespace Sys2Proof.Machine

/-- `eeprom.read` (R149). -/
def execEepromRead (start length : Int) (target : Byte) (halt : Bool) (s : State) : Host.Outcome State Fault Refusal :=
  serve { op := .eepromRead, space := some .eeprom, start := start, length := some length, halt := halt, target := target }
    rangeOp s

/-- `eeprom.write` (R151). -/
def execEepromWrite (start : Int) (payload : Option (List Byte)) (target : Byte) (halt : Bool) (s : State) :
    Host.Outcome State Fault Refusal :=
  serve { op := .eepromWrite, space := some .eeprom, start := start, payload := payload, halt := halt, target := target }
    rangeOp s

end Sys2Proof.Machine
end

