-- ==== Sys2Proof/Machine/Frames.lean ====
section
/-! DEFINITION. The bus frames (R76) as instructions: one transaction each (log 19). -/

namespace Sys2Proof.Machine

/-- `F_ISP_PTR` (R77). -/
def execFIspPtr (a : Byte) (s : State) : Host.Outcome State Fault Refusal := issue (txIspPtr a) s

/-- `F_ISP_DATA` (R77). -/
def execFIspData (s : State) : Host.Outcome State Fault Refusal := issue txIspData s

/-- `F_ISP_WR` (R78). -/
def execFIspWr (a v : Byte) (s : State) : Host.Outcome State Fault Refusal := issue (txIspWr a v) s

/-- `F_ISP_CTRL` (R78). -/
def execFIspCtrl (e : Bool) (s : State) : Host.Outcome State Fault Refusal := issue (txIspCtrl e) s

/-- `F_ISP_RESET` (R78). -/
def execFIspReset (s : State) : Host.Outcome State Fault Refusal := issue txIspReset s

/-- `F_ISP_QUERY` (R79). -/
def execFIspQuery (s : State) : Host.Outcome State Fault Refusal := issue txIspQuery s

/-- `F_CTOR_PROBE` (R85). -/
def execFCtorProbe (s : State) : Host.Outcome State Fault Refusal := issue txCtorProbe s

/-- `F_HALT` (R80). -/
def execFHalt (h : Bool) (s : State) : Host.Outcome State Fault Refusal := issue (txHalt h) s

/-- `F_XDATA_RD` (R81). -/
def execFXdataRd (a : Addr16) (s : State) : Host.Outcome State Fault Refusal := issue (txXdataRd a) s

/-- `F_XDATA_WR` (R81). -/
def execFXdataWr (a : Addr16) (v : Byte) (s : State) : Host.Outcome State Fault Refusal := issue (txXdataWr a v) s

/-- `F_EE_RD` (R82). -/
def execFEeRd (a : Addr16) (t : Byte) (s : State) : Host.Outcome State Fault Refusal := issue (txEeRd a t) s

/-- `F_EE_WR` (R82). -/
def execFEeWr (a : Addr16) (t v : Byte) (s : State) : Host.Outcome State Fault Refusal := issue (txEeWr a t v) s

/-- `F_DBG_DATA` (R83). -/
def execFDbgData (s : State) : Host.Outcome State Fault Refusal := issue txDbgData s

/-- `F_DBG_PROBE` (R83). -/
def execFDbgProbe (s : State) : Host.Outcome State Fault Refusal := issue txDbgProbe s

/-- `F_DBG_EN` (R84). -/
def execFDbgEn (s : State) : Host.Outcome State Fault Refusal := issue (txDbgEn s.cfg) s

/-- `F_DBG_DIS` (R84). -/
def execFDbgDis (s : State) : Host.Outcome State Fault Refusal := issue (txDbgDis s.cfg) s

end Sys2Proof.Machine
end

