-- ==== Sys2Proof/Machine/IspAccess.lean ====
section
/-! DEFINITION. ISP direct access (43_isp_access.md): the host requests on the ISP register file. -/

namespace Sys2Proof.Machine

/-- `isp.read` (R137). -/
def execIspRead (start length : Int) (s : State) : Host.Outcome State Fault Refusal :=
  serve { op := .ispRead, space := some .isp, start := start, length := some length } rangeOp s

/-- `isp.write` (R139). -/
def execIspWrite (start : Int) (payload : Option (List Byte)) (s : State) : Host.Outcome State Fault Refusal :=
  serve { op := .ispWrite, space := some .isp, start := start, payload := payload } rangeOp s

/-- `ispReset` (R141): ISP mode is enabled by force, then the reset command is sent; `haltedFlag` is left as it is. -/
def ispReset : Prog Result :=
  (setIspEnabled true true).bind fun _ => (bus txIspReset).bind fun _ => .ret .void

/-- `isp.reset` (R141). -/
def execIspReset (s : State) : Host.Outcome State Fault Refusal := serve { op := .ispReset } ispReset s

end Sys2Proof.Machine
end

