-- ==== Sys2Proof/Machine/ModeRequests.lean ====
section
/-! DEFINITION. The host requests on the modes (41_mode_gate.md) and on the MCU (R131). The requests of R132 run with no guard, no validation and no bracket. -/

namespace Sys2Proof.Machine

/-- The program of `isp.enabled` (R112). -/
def ispEnabled : Prog Result := queryIspEnabled.bind fun b => .ret (.flag b)

/-- The program of `isp.set_enabled` (R113). -/
def ispSetEnabled : Prog Result := withLatches fun q => (setIspEnabled q.on q.force).bind fun _ => .ret .void

/-- The program of `dbg.enabled` (R114). -/
def dbgEnabled : Prog Result := queryDebugEnabled.bind fun b => .ret (.flag b)

/-- The program of `dbg.set_enabled` (R117). -/
def dbgSetEnabled : Prog Result := withLatches fun q => (setDebugEnabled q.on q.force).bind fun _ => .ret .void

/-- The program of `dbg.set_auto` (R120). -/
def dbgSetAuto : Prog Result := withLatches fun q => (assign fun s => s.setAuto q.on).bind fun _ => .ret .void

/-- The program of `dbg.halt` (R131). -/
def dbgHalt : Prog Result := withLatches fun q => haltMcu q.on

/-- `isp.enabled` (R112). -/
def execIspEnabled (s : State) : Host.Outcome State Fault Refusal :=
  serve { op := .ispEnabled } Machine.ispEnabled s

/-- `isp.set_enabled` (R113). -/
def execIspSetEnabled (on force : Bool) (s : State) : Host.Outcome State Fault Refusal :=
  serve { op := .ispSetEnabled, on := on, force := force } Machine.ispSetEnabled s

/-- `dbg.enabled` (R114). -/
def execDbgEnabled (s : State) : Host.Outcome State Fault Refusal :=
  serve { op := .dbgEnabled } Machine.dbgEnabled s

/-- `dbg.set_enabled` (R117). -/
def execDbgSetEnabled (on force : Bool) (s : State) : Host.Outcome State Fault Refusal :=
  serve { op := .dbgSetEnabled, on := on, force := force } Machine.dbgSetEnabled s

/-- `dbg.set_auto` (R120): no bus event, no gate, no failure. -/
def execDbgSetAuto (on : Bool) (s : State) : Host.Outcome State Fault Refusal :=
  serve { op := .dbgSetAuto, on := on } Machine.dbgSetAuto s

/-- `dbg.halt` (R131). -/
def execDbgHalt (on : Bool) (s : State) : Host.Outcome State Fault Refusal :=
  serve { op := .dbgHalt, on := on } Machine.dbgHalt s

end Sys2Proof.Machine
end

