-- ==== Sys2Proof/Machine/XdataAccess.lean ====
section
/-! DEFINITION. Debug XDATA direct access (44_xdata_access.md). -/

namespace Sys2Proof.Machine

/-- `xdata.read` (R143). -/
def execXdataRead (start length : Int) (halt : Bool) (s : State) : Host.Outcome State Fault Refusal :=
  serve { op := .xdataRead, space := some .xdata, start := start, length := some length, halt := halt } rangeOp s

/-- `xdata.write` (R145). -/
def execXdataWrite (start : Int) (payload : Option (List Byte)) (halt : Bool) (s : State) :
    Host.Outcome State Fault Refusal :=
  serve { op := .xdataWrite, space := some .xdata, start := start, payload := payload, halt := halt } rangeOp s

end Sys2Proof.Machine
end

