-- ==== Sys2Proof/Machine/Dispatch.lean ====
section
/-! DEFINITION. One arm per instruction, each a call of its meaning. -/

namespace Sys2Proof.Machine

def exec (i : Instr) (s : State) : Host.Outcome State Fault Refusal :=
  match i with
  | .ispRead start length => Sys2Proof.Machine.execIspRead start length s
  | .ispWrite start payload => Sys2Proof.Machine.execIspWrite start payload s
  | .ispDump start length last => Sys2Proof.Machine.execIspDump start length last s
  | .xdataRead start length halt => Sys2Proof.Machine.execXdataRead start length halt s
  | .xdataWrite start payload halt => Sys2Proof.Machine.execXdataWrite start payload halt s
  | .xdataDump start length last halt => Sys2Proof.Machine.execXdataDump start length last halt s
  | .eepromRead start length target halt => Sys2Proof.Machine.execEepromRead start length target halt s
  | .eepromWrite start payload target halt => Sys2Proof.Machine.execEepromWrite start payload target halt s
  | .eepromDump start length last target halt => Sys2Proof.Machine.execEepromDump start length last target halt s
  | .ispEnabled => Sys2Proof.Machine.execIspEnabled s
  | .ispSetEnabled on force => Sys2Proof.Machine.execIspSetEnabled on force s
  | .dbgEnabled => Sys2Proof.Machine.execDbgEnabled s
  | .dbgSetEnabled on force => Sys2Proof.Machine.execDbgSetEnabled on force s
  | .dbgSetAuto on => Sys2Proof.Machine.execDbgSetAuto on s
  | .ispReset => Sys2Proof.Machine.execIspReset s
  | .dbgHalt on => Sys2Proof.Machine.execDbgHalt on s
  | .fIspPtr a => Sys2Proof.Machine.execFIspPtr a s
  | .fIspData => Sys2Proof.Machine.execFIspData s
  | .fIspWr a v => Sys2Proof.Machine.execFIspWr a v s
  | .fIspCtrl e => Sys2Proof.Machine.execFIspCtrl e s
  | .fIspReset => Sys2Proof.Machine.execFIspReset s
  | .fIspQuery => Sys2Proof.Machine.execFIspQuery s
  | .fCtorProbe => Sys2Proof.Machine.execFCtorProbe s
  | .fHalt h => Sys2Proof.Machine.execFHalt h s
  | .fXdataRd a => Sys2Proof.Machine.execFXdataRd a s
  | .fXdataWr a v => Sys2Proof.Machine.execFXdataWr a v s
  | .fEeRd a t => Sys2Proof.Machine.execFEeRd a t s
  | .fEeWr a t v => Sys2Proof.Machine.execFEeWr a t v s
  | .fDbgData => Sys2Proof.Machine.execFDbgData s
  | .fDbgProbe => Sys2Proof.Machine.execFDbgProbe s
  | .fDbgEn => Sys2Proof.Machine.execFDbgEn s
  | .fDbgDis => Sys2Proof.Machine.execFDbgDis s

end Sys2Proof.Machine
end

