-- ==== Sys2Proof/WellFormed.lean ====
section
/-! DEFINITION. The checks on the two raw forms: R91's on a host request record, R88's on a transaction. A term of `Instr` needs
none: its types admit only operands the spec admits (an address is any `Int` at the interface, R92; a target is any byte, R155). -/

namespace Sys2Proof

/-- The code is one of R90's (R91). -/
def Request.opKnown (r : Request) : Bool := (Op.ofCode r.op).isSome

/-- `end` stands on a dump only (R91). -/
def Request.endAllowed (r : Request) : Bool :=
  match Op.ofCode r.op with
  | some o => o.isDump || r.last.isNone
  | none => false

/-- A range operation gives `start` (R91). -/
def Request.startGiven (r : Request) : Bool :=
  match Op.ofCode r.op with
  | some o => o.space.isNone || r.start.isSome
  | none => false

/-- A write gives `payload`, which may itself be a non-iterable value (R91, R111). -/
def Request.payloadGiven (r : Request) : Bool :=
  match Op.ofCode r.op with
  | some o => !o.isWrite || r.payload.isSome
  | none => false

/-- A setter and `dbg.halt` give `on` (R91). -/
def Request.onGiven (r : Request) : Bool :=
  match Op.ofCode r.op with
  | some o => !o.needsOn || r.on.isSome
  | none => false

/-- R91 admits the request. -/
def Request.wellFormed (r : Request) : Bool :=
  r.opKnown && r.endAllowed && r.startGiven && r.payloadGiven && r.onGiven

/-- R76 lists the transaction (R88: any other is never emitted). A write to DBG is compared with the whole disable sequence
first, then told by its first byte and its length (R87). -/
def Txn.listed (p : Params) : Txn → Bool
  | .w .isp [_] => true
  | .w .isp [_, _] => true
  | .w .ddc bs => bs == p.enable.bytes
  | .w .dbg bs => bs == p.disable.bytes ||
      match bs with
      | [c, h] => c == cmdHalt && (h == haltVal || h == runVal)
      | [c, _, _] => c == cmdXdataRd
      | [c, _, _, _] => c == cmdXdataWr
      | [c, _, _, v, _] => (c == cmdEeRd && v == eeRdPad) || c == cmdEeWr
      | _ => false
  | .wr .isp ws n => (ws == ispReadPrefix && n == 1) || (ws == [ispCtrlReg] && n == 1) || (ws == ctorProbeWs && n == ctorProbeN)
  | .wr .dbg ws n => (ws == dbgReadPrefix && n == 1) || (ws == dbgProbeWs && n == dbgProbeN)
  | _ => false

end Sys2Proof
end

