-- ==== Sys2Proof/Decode.lean ====
section
/-! DEFINITION. The decoder, total on every request record and every transaction, rejecting by name (R87 to R92), then the
encoder, written from the same tables (R76, R89, R90). -/

namespace Sys2Proof

/-- Go on with a required operand, or reject the request by the operand's name (R91). -/
def Decoded.need {α : Type} (o : Option α) (name : Operand) (k : α → Decoded) : Decoded :=
  match o with
  | some a => k a
  | none => .rejected (.missingOperand name)

/-- The request of an operation with its operands, absent operands at the defaults of R90 (R92). An operand the operation does
not take has no effect (R26). -/
def decodeOperands (r : Request) : Op → Decoded
  | .ispRead => .need r.start .start fun a => .instr (.ispRead a (r.length.getD readLenDefault))
  | .ispWrite => .need r.start .start fun a => .need r.payload .payload fun v => .instr (.ispWrite a v)
  | .ispDump => .need r.start .start fun a => .instr (.ispDump a r.length r.last)
  | .xdataRead => .need r.start .start fun a =>
      .instr (.xdataRead a (r.length.getD readLenDefault) (r.halt.getD haltDefault))
  | .xdataWrite => .need r.start .start fun a => .need r.payload .payload fun v =>
      .instr (.xdataWrite a v (r.halt.getD haltDefault))
  | .xdataDump => .need r.start .start fun a => .instr (.xdataDump a r.length r.last (r.halt.getD haltDefault))
  | .eepromRead => .need r.start .start fun a =>
      .instr (.eepromRead a (r.length.getD readLenDefault) (r.target.getD eepromTargetDefault) (r.halt.getD haltDefault))
  | .eepromWrite => .need r.start .start fun a => .need r.payload .payload fun v =>
      .instr (.eepromWrite a v (r.target.getD eepromTargetDefault) (r.halt.getD haltDefault))
  | .eepromDump => .need r.start .start fun a =>
      .instr (.eepromDump a r.length r.last (r.target.getD eepromTargetDefault) (r.halt.getD haltDefault))
  | .ispEnabled => .instr .ispEnabled
  | .ispSetEnabled => .need r.on .on fun b => .instr (.ispSetEnabled b (r.force.getD forceDefault))
  | .dbgEnabled => .instr .dbgEnabled
  | .dbgSetEnabled => .need r.on .on fun b => .instr (.dbgSetEnabled b (r.force.getD forceDefault))
  | .dbgSetAuto => .need r.on .on fun b => .instr (.dbgSetAuto b)
  | .ispReset => .instr .ispReset
  | .dbgHalt => .need r.on .on fun b => .instr (.dbgHalt b)

/-- Decoding a host request (R89 to R92): a reserved code, then `end` on a non-dump, then a missing operand is rejected. -/
def decodeRequest (r : Request) : Decoded :=
  match Op.ofCode r.op with
  | none => .rejected (.reservedOp r.op)
  | some o => if r.last.isSome && !o.isDump then .rejected .endOnNonDump else decodeOperands r o

/-- Decoding a write to DBG outside a mode setter: by byte 0 and the length (R87). -/
def decodeDbgCommand : List Byte → Decoded
  | [c, lo, hi] => if c = cmdXdataRd then .instr (.fXdataRd (joinAddr hi lo)) else .rejected .unlistedFrame
  | [c, lo, hi, v] => if c = cmdXdataWr then .instr (.fXdataWr (joinAddr hi lo) v) else .rejected .unlistedFrame
  | [c, lo, t, v, hi] =>
      if c = cmdEeRd ∧ v = eeRdPad then .instr (.fEeRd (joinAddr hi lo) t)
      else if c = cmdEeWr then .instr (.fEeWr (joinAddr hi lo) t v)
      else .rejected .unlistedFrame
  | _ => .rejected .unlistedFrame

/-- Decoding a frame (R76, R87): the device, the kind, the length and the bytes, and the rule that emits it where two rows
share their bytes (log 20). -/
def decodeFrame (p : Params) (e : Emitter) (t : Txn) : Decoded :=
  match e, t with
  | .construction, t => if t = txCtorProbe then .instr .fCtorProbe else .rejected .unlistedFrame
  | .modeQuery, t =>
      if t = txIspQuery then .instr .fIspQuery
      else if t = txDbgProbe then .instr .fDbgProbe
      else .rejected .unlistedFrame
  | .modeSet, t =>
      if t = txIspCtrl true then .instr (.fIspCtrl true)
      else if t = txIspCtrl false then .instr (.fIspCtrl false)
      else if t = txDbgEn p then .instr .fDbgEn
      else if t = txDbgDis p then .instr .fDbgDis
      else .rejected .unlistedFrame
  | .ispReset, t => if t = txIspReset then .instr .fIspReset else .rejected .unlistedFrame
  | .haltControl, t =>
      if t = txHalt true then .instr (.fHalt true)
      else if t = txHalt false then .instr (.fHalt false)
      else .rejected .unlistedFrame
  | .transfer, .w .isp [a] => .instr (.fIspPtr a)
  | .transfer, .w .isp [a, v] => .instr (.fIspWr a v)
  | .transfer, .w .dbg bs => decodeDbgCommand bs
  | .transfer, .wr d ws n =>
      if Txn.wr d ws n = txIspData then .instr .fIspData
      else if Txn.wr d ws n = txDbgData then .instr .fDbgData
      else .rejected .unlistedFrame
  | .transfer, _ => .rejected .unlistedFrame

/-- What a frame reader that sees the bus alone makes of a transaction (R87): the device, the kind and the length first; a write
to DBG is compared with the whole disable sequence before it is told by byte 0. Rows that share their bytes are read as the
data row of the transfers (R78, R88). -/
def readFrame (p : Params) : Txn → Decoded
  | .w .isp [a] => .instr (.fIspPtr a)
  | .w .isp [a, v] => .instr (.fIspWr a v)
  | .w .isp _ => .rejected .unlistedFrame
  | .w .ddc bs => if bs = p.enable.bytes then .instr .fDbgEn else .rejected .unlistedFrame
  | .w .dbg bs =>
      if bs = p.disable.bytes then .instr .fDbgDis
      else if bs = [cmdHalt, haltVal] then .instr (.fHalt true)
      else if bs = [cmdHalt, runVal] then .instr (.fHalt false)
      else decodeDbgCommand bs
  | .wr d ws n =>
      if Txn.wr d ws n = txIspQuery then .instr .fIspQuery
      else if Txn.wr d ws n = txIspData then .instr .fIspData
      else if Txn.wr d ws n = txDbgData then .instr .fDbgData
      else .rejected .unlistedFrame

/-- The decoder, total on both raw forms. -/
def decode (p : Params) : Code → Decoded
  | .request r => decodeRequest r
  | .frame e t => decodeFrame p e t

/-- The encoder: the request record of R89 with the operands R90 gives the operation, or the transaction of R76 with the rule
that emits it. -/
def encode (p : Params) : Instr → Code
  | .ispRead a n => .request { r .ispRead a with length := some n }
  | .ispWrite a v => .request { r .ispWrite a with payload := some v }
  | .ispDump a n e => .request { r .ispDump a with length := n, last := e }
  | .xdataRead a n h => .request { r .xdataRead a with length := some n, halt := some h }
  | .xdataWrite a v h => .request { r .xdataWrite a with payload := some v, halt := some h }
  | .xdataDump a n e h => .request { r .xdataDump a with length := n, last := e, halt := some h }
  | .eepromRead a n t h => .request { r .eepromRead a with length := some n, target := some t, halt := some h }
  | .eepromWrite a v t h => .request { r .eepromWrite a with payload := some v, target := some t, halt := some h }
  | .eepromDump a n e t h => .request { r .eepromDump a with length := n, last := e, target := some t, halt := some h }
  | .ispEnabled => .request { op := Op.ispEnabled.code }
  | .ispSetEnabled b f => .request { op := Op.ispSetEnabled.code, on := some b, force := some f }
  | .dbgEnabled => .request { op := Op.dbgEnabled.code }
  | .dbgSetEnabled b f => .request { op := Op.dbgSetEnabled.code, on := some b, force := some f }
  | .dbgSetAuto b => .request { op := Op.dbgSetAuto.code, on := some b }
  | .ispReset => .request { op := Op.ispReset.code }
  | .dbgHalt b => .request { op := Op.dbgHalt.code, on := some b }
  | .fIspPtr a => .frame .transfer (txIspPtr a)
  | .fIspData => .frame .transfer txIspData
  | .fIspWr a v => .frame .transfer (txIspWr a v)
  | .fIspCtrl e => .frame .modeSet (txIspCtrl e)
  | .fIspReset => .frame .ispReset txIspReset
  | .fIspQuery => .frame .modeQuery txIspQuery
  | .fCtorProbe => .frame .construction txCtorProbe
  | .fHalt h => .frame .haltControl (txHalt h)
  | .fXdataRd a => .frame .transfer (txXdataRd a)
  | .fXdataWr a v => .frame .transfer (txXdataWr a v)
  | .fEeRd a t => .frame .transfer (txEeRd a t)
  | .fEeWr a t v => .frame .transfer (txEeWr a t v)
  | .fDbgData => .frame .transfer txDbgData
  | .fDbgProbe => .frame .modeQuery txDbgProbe
  | .fDbgEn => .frame .modeSet (txDbgEn p)
  | .fDbgDis => .frame .modeSet (txDbgDis p)
where
  r (o : Op) (start : Int) : Request := { op := o.code, start := some start }

/-- The record of an operation whose operand words are all zero (log 1): integers 0, flags false, the target byte 00, the
payload the empty list. `end` is left out, since a zero there would give the operand. -/
def Request.ofTableWord (op : Byte) : Request :=
  match Op.ofCode op with
  | none => { op := op }
  | some o =>
    { op := op
      start := if o.space.isSome then some 0 else none
      length := if o.space.isSome && !o.isWrite then some 0 else none
      payload := if o.isWrite then some (some []) else none
      halt := if o.space.isSome then some false else none
      target := if o.space.isSome then some 0 else none
      on := if o.needsOn then some false else none
      force := if o.needsOn then some false else none }

/-- What the decoder reads from a table row of `nbits` bits holding `w`: the host requests are the 8-bit rows (R90). The frame
rows have no bits in the table: the device, the kind and the length of a transaction are no part of a word (R75). -/
def decodeTableWord (nbits w : Nat) : Option Instr :=
  if nbits = 8 ∧ w < 256 then
    match decodeRequest (Request.ofTableWord (BitVec.ofNat 8 w)) with
    | .instr i => some i
    | .rejected _ => none
  else none

end Sys2Proof
end

