-- ==== Sys2Proof/Machine/HostPort.lean ====
section
/-! DEFINITION. The host port: the block fetches its next instruction from what the host does next (R15, R58, log 4). -/

namespace Sys2Proof.Machine

/-- What the host port finds. -/
inductive Fetched where
  /-- The host does nothing: the block waits in Idle (R188, log 15). -/
  | nothing
  /-- A request, decoded, and the state with that act done. -/
  | instr (i : Instr) (s : State)
  /-- A request the interface refuses (R91). -/
  | rejected (e : DecodeError)
  /-- The handle is released and a new session opened (R189). -/
  | newSession (s : State)
deriving DecidableEq, Repr

/-- The next act of the host is taken off its list. -/
def State.actDone (s : State) : State := { s with host := s.host.tail }

/-- The next act of the host. -/
def fetch (s : State) : Fetched :=
  match s.host with
  | [] => .nothing
  | .request r :: _ =>
    match decode s.cfg (.request r) with
    | .instr i => .instr i s.actDone
    | .rejected e => .rejected e
  | .newSession :: _ => .newSession s.actDone

/-- The host issues one more request before all its other acts, to a block that is Ready. -/
def State.offer (s : State) (r : Request) : State := { s with life := .ready, host := .request r :: s.host }

end Sys2Proof.Machine
end

