-- ==== Sys2Proof/Machine/Step.lean ====
section
/-! DEFINITION. One step of the machine: construction of an unbuilt block, one whole request of a Ready block, or a turn of the
MCU beside a block that waits (log 2, log 15). The agents' own steps, of which each of these is made: Sys2Proof/Machine/Agents.lean. -/

namespace Sys2Proof.Machine

/-- One step (R25, R170, R186, R188). -/
def step (s : State) : Host.Outcome State Fault Refusal :=
  match s.life with
  | .unbuilt => construct s
  | .busy => .fault .stuck
  | .ready =>
    match fetch s with
    | .nothing => .next s.mcuActs
    | .instr i s => exec i s
    | .rejected e => .refused (.malformed e)
    | .newSession s => .next s.release
  | .dead =>
    match s.host with
    | [] => .next s.mcuActs
    | _ :: _ => .refused (.notReady .dead)

/-- The instruction of a table word placed where `step` fetches: the host issues its request next, and the block is Ready to
accept it (log 1, log 4). Words of other widths are no request and change nothing. -/
def State.withFetchWord (s : State) (nbits w : Nat) : State :=
  if nbits = 8 ∧ w < 256 then s.offer (Request.ofTableWord (BitVec.ofNat 8 w)) else s

end Sys2Proof.Machine
end

