-- ==== Sys2Proof/Machine/Agents.lean ====
section
/-! DEFINITION. The four agents of R15, each with a step of its own: the host issues a request, the engine does one primitive, the bus
and the target answer it, the MCU writes XDATA while it runs. Any order of their steps is a run. A step of the machine
(Sys2Proof/Machine/Step.lean) is the run in which the MCU takes one turn before each event (log 2; that it is a run is `step_is_played`
of Sys2Proof/Laws/Agents.lean). -/

namespace Sys2Proof.Machine

/-- The latches a request loads (R26); none for a frame. -/
def latchesOf : Instr → Option Latches
  | .ispRead a n => some { op := .ispRead, space := some .isp, start := a, length := some n }
  | .ispWrite a v => some { op := .ispWrite, space := some .isp, start := a, payload := v }
  | .ispDump a n e => some { op := .ispDump, space := some .isp, start := a, length := n, last := e }
  | .xdataRead a n h => some { op := .xdataRead, space := some .xdata, start := a, length := some n, halt := h }
  | .xdataWrite a v h => some { op := .xdataWrite, space := some .xdata, start := a, payload := v, halt := h }
  | .xdataDump a n e h => some { op := .xdataDump, space := some .xdata, start := a, length := n, last := e, halt := h }
  | .eepromRead a n t h =>
    some { op := .eepromRead, space := some .eeprom, start := a, length := some n, halt := h, target := t }
  | .eepromWrite a v t h =>
    some { op := .eepromWrite, space := some .eeprom, start := a, payload := v, halt := h, target := t }
  | .eepromDump a n e t h =>
    some { op := .eepromDump, space := some .eeprom, start := a, length := n, last := e, halt := h, target := t }
  | .ispEnabled => some { op := .ispEnabled }
  | .ispSetEnabled b f => some { op := .ispSetEnabled, on := b, force := f }
  | .dbgEnabled => some { op := .dbgEnabled }
  | .dbgSetEnabled b f => some { op := .dbgSetEnabled, on := b, force := f }
  | .dbgSetAuto b => some { op := .dbgSetAuto, on := b }
  | .ispReset => some { op := .ispReset }
  | .dbgHalt b => some { op := .dbgHalt, on := b }
  | .fIspPtr _ | .fIspData | .fIspWr _ _ | .fIspCtrl _ | .fIspReset | .fIspQuery | .fCtorProbe | .fHalt _ | .fXdataRd _
  | .fXdataWr _ _ | .fEeRd _ _ | .fEeWr _ _ _ | .fDbgData | .fDbgProbe | .fDbgEn | .fDbgDis => none

/-- The program of an operation (R26: `op` is the latch dispatch reads). -/
def programOf : Op → Prog Result
  | .ispRead | .ispWrite | .ispDump => rangeOp
  | .xdataRead | .xdataWrite | .xdataDump => rangeOp
  | .eepromRead | .eepromWrite | .eepromDump => rangeOp
  | .ispEnabled => ispEnabled
  | .ispSetEnabled => ispSetEnabled
  | .dbgEnabled => dbgEnabled
  | .dbgSetEnabled => dbgSetEnabled
  | .dbgSetAuto => dbgSetAuto
  | .ispReset => ispReset
  | .dbgHalt => dbgHalt

/-- The port between the engine and the bus (R12, R13): nothing on it, a transaction issued, its outcome on its way back, or a
transaction that never returns (R170). -/
inductive Port where
  | free
  | asked (t : Txn)
  | told (o : Except Err (List Byte))
  | lost

/-- The machine between the steps of its agents: its state, what is left of the engine's program, and the bus port. -/
structure System where
  state : State
  prog  : Option (Prog Result)
  port  : Port

/-- The machine with no request in progress; a block stuck in a transaction (R170) has its port lost. -/
def System.atRest (s : State) : System := { state := s, prog := none, port := if s.life = .busy then .lost else .free }

/-- The outcome of the engine's program reaches the host: the response to a request (R133), or the end of construction (R186). -/
def State.deliver (s : State) (o : Except Err Result) : State :=
  match s.life, o with
  | .unbuilt, .ok _ => s.built
  | .unbuilt, .error e => s.die e
  | _, .ok r => s.respond (.ok r)
  | _, .error e => s.takeError e

/-- The engine goes on to its next primitive: it issues a transaction, stands at a delay, or is done (R12). -/
def System.goOn : Prog Result → State → Host.Outcome System Fault Refusal
  | .ret r, s => .next (.atRest (s.deliver (.ok r)))
  | .throw e, s => .next (.atRest (s.deliver (.error e)))
  | .fault f, _ => .fault f
  | .bus t r, s => .next { state := s, prog := some (.bus t r), port := .asked t }
  | .sleep ms r, s => .next { state := s, prog := some (.sleep ms r), port := .free }
  | .get r, s => goOn (r s) s
  | .set f r, s => goOn r (f s)

/-- The host's step: the next request is issued to a Ready block, or the handle released; else the host waits (R25, R58). -/
def System.hostStep (c : System) : Host.Outcome System Fault Refusal :=
  match c.state.life with
  | .ready =>
    match fetch c.state with
    | .nothing => .next c
    | .instr i s =>
      match latchesOf i with
      | some q => .next { c with state := s.accept q, prog := some (programOf q.op) }
      | none => .next c
    | .rejected e => .refused (.malformed e)
    | .newSession s => .next (.atRest s.release)
  | .dead =>
    match c.state.host with
    | [] => .next c
    | _ :: _ => .refused (.notReady .dead)
  | .unbuilt => .next c
  | .busy => .next c

/-- The engine's step: one primitive. It takes the outcome of the transaction it issued, or lets the delay it stands at pass, and goes
on; it waits while the bus has not answered, and is stuck in a transaction that never returns (R170). -/
def System.engineStep (c : System) : Host.Outcome System Fault Refusal :=
  match c.port, c.prog with
  | .asked _, _ => .next c
  | .lost, _ => .fault .stuck
  | .told o, some (.bus _ r) => goOn (r o) c.state
  | .told _, _ => .next c
  | .free, some (.sleep ms r) => goOn r (c.state.slept ms)
  | .free, some p => goOn p c.state
  | .free, none => if c.state.life = .unbuilt then goOn construction c.state else .next c

/-- The bus's step: it answers the transaction on the port with an outcome (R12, R13). -/
def System.busStep (c : System) : Host.Outcome System Fault Refusal :=
  match c.port with
  | .asked t =>
    match c.state.busActs t with
    | .ok rs s => .next { c with state := s, port := .told (.ok rs) }
    | .raised e s => .next { c with state := s, port := .told (.error e) }
    | .hung s => .next (.atRest s)
    | .fault f => .fault f
    | .refused q => .refused q
  | .free => .next c
  | .told _ => .next c
  | .lost => .next c

/-- The MCU's step, at any moment: it writes XDATA if it runs, nothing while it is halted (R73). -/
def System.mcuStep (c : System) : Host.Outcome System Fault Refusal := .next { c with state := c.state.mcuActs }

/-- The agents (R15). -/
inductive Agent where
  | host
  | engine
  | bus
  | mcu
deriving DecidableEq, Repr

/-- The step of an agent. -/
def System.agentStep (c : System) : Agent → Host.Outcome System Fault Refusal
  | .host => c.hostStep
  | .engine => c.engineStep
  | .bus => c.busStep
  | .mcu => c.mcuStep

/-- The agents act in this order. -/
def System.play : List Agent → System → Host.Outcome System Fault Refusal
  | [], c => .next c
  | a :: as, c =>
    match c.agentStep a with
    | .next c => play as c
    | .fault f => .fault f
    | .refused q => .refused q

end Sys2Proof.Machine
end

