-- ==== Sys2Proof/Safety.lean ====
section
/-! DEFINITION. The terms the statements use: what a request asks for, what a run may show, and the invariant of the machine. -/

namespace Sys2Proof.Machine

/-! What an instruction asks for. -/

/-- The host requests (R90); the other instructions are the bus frames (R76). -/
def isRequest : Instr → Bool
  | .ispRead _ _ | .ispWrite _ _ | .ispDump _ _ _ | .xdataRead _ _ _ | .xdataWrite _ _ _ | .xdataDump _ _ _ _
  | .eepromRead _ _ _ _ | .eepromWrite _ _ _ _ | .eepromDump _ _ _ _ _ | .ispEnabled | .ispSetEnabled _ _ | .dbgEnabled
  | .dbgSetEnabled _ _ | .dbgSetAuto _ | .ispReset | .dbgHalt _ => true
  | .fIspPtr _ | .fIspData | .fIspWr _ _ | .fIspCtrl _ | .fIspReset | .fIspQuery | .fCtorProbe | .fHalt _ | .fXdataRd _
  | .fXdataWr _ _ | .fEeRd _ _ | .fEeWr _ _ _ | .fDbgData | .fDbgProbe | .fDbgEn | .fDbgDis => false

/-- The length a dump reads (R156): `end - start + 1` where `end` is given, else the length, else 16. -/
def dumpAsks (start : Int) (length last : Option Int) : Int :=
  match last, length with
  | some e, _ => e - start + 1
  | none, some n => n
  | none, none => 16

/-- Start and length of an ISP request that reads. -/
def ispReads : Instr → Option (Int × Int)
  | .ispRead a n => some (a, n)
  | .ispDump a n e => some (a, dumpAsks a n e)
  | _ => none

/-- Start, length and `halt` of an XDATA request that reads. -/
def xdataReads : Instr → Option (Int × Int × Bool)
  | .xdataRead a n h => some (a, n, h)
  | .xdataDump a n e h => some (a, dumpAsks a n e, h)
  | _ => none

/-- Start, length, target and `halt` of an EEPROM request that reads. -/
def eepromReads : Instr → Option (Int × Int × Byte × Bool)
  | .eepromRead a n t h => some (a, n, t, h)
  | .eepromDump a n e t h => some (a, dumpAsks a n e, t, h)
  | _ => none

/-- What a range request asks for: its space, its start, its length (a write's is the size of its payload, R109; none for a
payload that is no list, R111), and whether it writes. -/
def rangeAsked : Instr → Option (Space × Int × Option Int × Bool)
  | .ispRead a n => some (.isp, a, some n, false)
  | .ispDump a n e => some (.isp, a, some (dumpAsks a n e), false)
  | .ispWrite a v => some (.isp, a, v.map fun l => (l.length : Int), true)
  | .xdataRead a n _ => some (.xdata, a, some n, false)
  | .xdataDump a n e _ => some (.xdata, a, some (dumpAsks a n e), false)
  | .xdataWrite a v _ => some (.xdata, a, v.map fun l => (l.length : Int), true)
  | .eepromRead a n _ _ => some (.eeprom, a, some n, false)
  | .eepromDump a n e _ _ => some (.eeprom, a, some (dumpAsks a n e), false)
  | .eepromWrite a v _ _ => some (.eeprom, a, v.map fun l => (l.length : Int), true)
  | _ => none

/-- The requests the debug guard protects (R121). -/
def debugProtected (i : Instr) : Bool :=
  match i with
  | .dbgHalt _ => true
  | i => match rangeAsked i with
    | some (.xdata, _) => true
    | some (.eeprom, _) => true
    | _ => false

/-- The requests that use the halt bracket (R127). -/
def bracketed : Instr → Bool
  | .xdataRead _ _ h | .xdataWrite _ _ h | .xdataDump _ _ _ h => h
  | .eepromRead _ _ _ h | .eepromWrite _ _ _ h | .eepromDump _ _ _ _ h => h
  | _ => false

/-! What surrounds a run. -/

/-- The transport answers as the reference device, and the MCU cannot write: it has nothing to write, or it is halted. -/
abbrev State.Quiet (s : State) : Prop := s.oracle = [] ∧ (s.mcu = [] ∨ s.target.mcuHalted = true)

/-- No delay is owed: no DBG frame has to wait, and no debug write has to settle (R71, U12). -/
abbrev Target.Settled (t : Target) : Prop := t.InTime ∧ t.owedWrite = 0

/-- The debug interface answers, and no delay is owed (R68, R71). -/
abbrev Target.Answers (t : Target) : Prop := t.debugMode = true ∧ t.Settled

/-- ISP mode is on (R35). -/
abbrev Target.IspOn (t : Target) : Prop := (t.peek (.isp 0x6f)).getLsbD 7 = true

/-- The OPEN disable sequence is no halt-control frame: a frame reader compares with it first (R87), and where the two coincide a
halt command turns debug mode off. -/
abbrev HaltDistinct (p : Params) : Prop := p.disable.bytes ≠ [0x80, 0x01] ∧ p.disable.bytes ≠ [0x80, 0x00]

/-- A request asks for addresses inside a window (R106). -/
abbrev InWindow (max start length : Int) : Prop :=
  0 ≤ start ∧ start ≤ max ∧ 0 ≤ start + length - 1 ∧ start + length - 1 ≤ max

/-! What a run shows. -/

/-- Events happen: they are appended to the trace, the target is `g` after them and the MCU has had one turn before each (R14,
R73). -/
def State.after (s : State) (evs : List Event) (g : Target) : State :=
  { s with trace := s.trace ++ evs, target := g, mcu := s.mcu.drop evs.length }

/-- A request is answered: one more response, its latches still loaded, the per-request latches clear (R163). -/
def State.answered (s : State) (i : Instr) (r : Response) : State :=
  { s with life := .ready, latches := latchesOf i, phase := .idle, autoTaken := false, bracketOpen := false, result := [],
           pendingError := none, responses := s.responses ++ [r] }

/-- `W(dev, bs)`, ok. -/
abbrev wOk (d : Dev) (bs : List Byte) : Event := .w d bs (.ok [])

/-- `WR(dev, ws, |rs|)->[rs]`. -/
abbrev rOk (d : Dev) (ws rs : List Byte) : Event := .wr d ws rs.length (.ok rs)

/-- The probe of debug mode that finds it off (R114). -/
abbrev probeOff : Event := .wr .dbg [] 1 (.err .unreachable)

/-- The events inside a halt bracket (R127), or alone. -/
def inBracket (halt : Bool) (evs : List Event) : List Event :=
  if halt then [wOk .dbg [0x80, 0x01], .d 100] ++ evs ++ [wOk .dbg [0x80, 0x00], .d 100] else evs

/-- The extra settle delay of a transfer without the bracket (R147, R153). -/
def settleEvents (halt : Bool) : List Event := if halt then [] else [.d 10]

/-- Every byte of the target reads as before: nothing is stored. -/
abbrev Target.SameBytes (g t : Target) : Prop := ∀ x, g.peek x = t.peek x

/-- The modes of the target are `debug` and `halted`, and its ISP pointer is `ptr`. -/
abbrev Target.Modes (g : Target) (debug halted : Bool) (ptr : Byte) : Prop :=
  g.debugMode = debug ∧ g.mcuHalted = halted ∧ g.ispPtr = ptr

/-- One byte is stored, every other byte reads as before. -/
abbrev Target.Stores (g t : Target) (l : Loc) (v : Byte) : Prop := g.peek l = v ∧ ∀ x, x ≠ l → g.peek x = t.peek x

/-- The bytes of a list are stored at `loc 0`, `loc 1`, …; every other byte reads as before. -/
abbrev Target.StoresAll (g t : Target) (loc : Nat → Loc) (vs : List Byte) : Prop :=
  (∀ k (h : k < vs.length), g.peek (loc k) = vs[k]) ∧ ∀ x, (∀ k, k < vs.length → x ≠ loc k) → g.peek x = t.peek x

/-- The block is Ready, the transport answers as the reference device, the MCU writes nothing. -/
abbrev State.Serves (s : State) : Prop := s.life = .ready ∧ s.oracle = [] ∧ s.mcu = []

/-- The same for an access to debug memory without the halt bracket, where a halted MCU stays halted and may have anything to
write. -/
abbrev State.ServesDebug (s : State) (halt : Bool) : Prop :=
  s.life = .ready ∧ s.oracle = [] ∧ (s.mcu = [] ∨ (halt = false ∧ s.target.mcuHalted = true))

/-- The ISP register at an address of the window. -/
def Target.ispAt (t : Target) (a : Int) : Byte := t.peek (.isp (BitVec.ofInt 8 a))

/-- The XDATA byte at an address of the window. -/
def Target.xdataAt (t : Target) (a : Int) : Byte := t.peek (.xdata (BitVec.ofInt 16 a))

/-- The EEPROM byte at an address of the window. -/
def Target.eepromAt (t : Target) (g : Byte) (a : Int) : Byte := t.peek (.eeprom g (BitVec.ofInt 16 a))

/-- The low byte of an address, as the frames carry it (R46, R47). -/
def loByte (a : Int) : Byte := BitVec.ofInt 8 a

/-- The high byte of an address (R46, R47). -/
def hiByte (a : Int) : Byte := BitVec.ofInt 8 (a / 256)

/-- The events of switching debug mode on under the policy (R117, R122): one probe if it answers, with the byte `b`, else the
unlock sequence between its delays. -/
def enableEvents (p : Params) (on : Bool) (b : Byte) : List Event :=
  if on then [rOk .dbg [] [b]] else [probeOff, .d 50, wOk .ddc p.enable.bytes, .d 50]

/-- The events of switching debug mode off (R117): the probe answers with the byte `b`. -/
def disableEvents (p : Params) (b : Byte) : List Event :=
  [rOk .dbg [] [b], .d 50, wOk .dbg p.disable.bytes, .d 50]

/-- The events of `n` ISP read transfers (R138). -/
def ispReadEvents (t : Target) (start : Int) (n : Nat) : List Event :=
  (List.range n).flatMap fun k : Nat => [wOk .isp [loByte (start + k)], rOk .isp [] [t.ispAt (start + k)]]

/-- The events of the ISP write transfers of a payload (R140). -/
def ispWriteEvents (start : Int) (vs : List Byte) : List Event :=
  vs.mapIdx fun (k : Nat) v => wOk .isp [loByte (start + k), v]

/-- The events of `n` XDATA read transfers (R144). -/
def xdataReadEvents (t : Target) (start : Int) (n : Nat) (halt : Bool) : List Event :=
  (List.range n).flatMap fun k : Nat =>
    [wOk .dbg [0x3a, loByte (start + k), hiByte (start + k)]] ++ settleEvents halt ++ [rOk .dbg [] [t.xdataAt (start + k)]]

/-- The events of the XDATA write transfers of a payload (R146). -/
def xdataWriteEvents (start : Int) (vs : List Byte) (halt : Bool) : List Event :=
  (vs.mapIdx fun (k : Nat) v => wOk .dbg [0x3b, loByte (start + k), hiByte (start + k), v] :: settleEvents halt).flatten

/-- The events of `n` EEPROM read transfers (R150). -/
def eepromReadEvents (t : Target) (g : Byte) (start : Int) (n : Nat) (halt : Bool) : List Event :=
  (List.range n).flatMap fun k : Nat =>
    [wOk .dbg [0x44, loByte (start + k), g, 0x00, hiByte (start + k)], .d 10] ++ settleEvents halt ++
      [rOk .dbg [] [t.eepromAt g (start + k)]]

/-- The events of the EEPROM write transfers of a payload (R152). -/
def eepromWriteEvents (g : Byte) (start : Int) (vs : List Byte) (halt : Bool) : List Event :=
  (vs.mapIdx fun (k : Nat) v =>
    [wOk .dbg [0x04, loByte (start + k), g, v, hiByte (start + k)], .d 10] ++ settleEvents halt).flatten

/-- The events of the transfers of a debug range request that all succeed, with the bytes the target holds (R144 to R152). -/
def transferEvents (t : Target) : Instr → List Event
  | .xdataRead a n h => xdataReadEvents t a n.toNat h
  | .xdataDump a n e h => xdataReadEvents t a (dumpAsks a n e).toNat h
  | .xdataWrite a v h => xdataWriteEvents a (v.getD []) h
  | .eepromRead a n g h => eepromReadEvents t g a n.toNat h
  | .eepromDump a n e g h => eepromReadEvents t g a (dumpAsks a n e).toNat h
  | .eepromWrite a v g h => eepromWriteEvents g a (v.getD []) h
  | _ => []

/-- The result of a debug range request that succeeds: the bytes in ascending order, or nothing for a write (R125). -/
def resultOf (t : Target) : Instr → Result
  | .xdataRead a n _ => .bytes ((List.range n.toNat).map fun k : Nat => t.xdataAt (a + k))
  | .xdataDump a n e _ => .bytes ((List.range (dumpAsks a n e).toNat).map fun k : Nat => t.xdataAt (a + k))
  | .eepromRead a n g _ => .bytes ((List.range n.toNat).map fun k : Nat => t.eepromAt g (a + k))
  | .eepromDump a n e g _ => .bytes ((List.range (dumpAsks a n e).toNat).map fun k : Nat => t.eepromAt g (a + k))
  | _ => .void

/-- Where a debug write stores the elements of its payload, and the payload (R145, R151); none for a request that writes nothing. -/
def writesTo : Instr → Option ((Nat → Loc) × List Byte)
  | .xdataWrite a (some vs) _ => some (fun k => .xdata (BitVec.ofInt 16 (a + k)), vs)
  | .eepromWrite a (some vs) g _ => some (fun k => .eeprom g (BitVec.ofInt 16 (a + k)), vs)
  | _ => none

/-- The first `k` elements of a write are stored and every other byte reads as before; a read stores nothing (R52). -/
abbrev Target.HoldsAfter (g t : Target) (i : Instr) (k : Nat) : Prop :=
  match writesTo i with
  | some (loc, vs) => g.StoresAll t loc (vs.take k)
  | none => g.SameBytes t

/-- The frame of transfer `k` has failed (R52, R164): the elements before it are stored. Without an effect on the target (`took`
false) every other byte reads as before; with one, the location of element `k` holds a byte, which is the element where its
write is `settled` (R71). -/
abbrev Target.FailedAt (g t : Target) (i : Instr) (k : Nat) (took settled : Bool) : Prop :=
  match writesTo i with
  | some (loc, vs) =>
      if took then ∃ v, g.StoresAll t loc (vs.take k ++ [v]) ∧ (settled = true → vs[k]? = some v)
      else g.StoresAll t loc (vs.take k)
  | none => g.SameBytes t

/-- The transaction of an event. -/
def txnOf : Event → Option Txn
  | .w d bs _ => some (.w d bs)
  | .wr d ws n _ => some (.wr d ws n)
  | .d _ => none

/-- The event of a transaction, not a delay. -/
def Event.isTxn (e : Event) : Bool := (txnOf e).isSome

/-- The transactions among some events. -/
def txns (es : List Event) : Nat := es.countP Event.isTxn

/-- The same transaction with outcome `err(k)`. -/
def Event.failed (k : ErrClass) : Event → Event
  | .w dev bs _ => .w dev bs (.err k)
  | .wr dev ws n _ => .wr dev ws n (.err k)
  | .d ms => .d ms

/-- The sum of the delays of a trace: the least time it takes, transactions not counted (R196, R202). -/
def totalDelay : List Event → Nat
  | [] => 0
  | .d ms :: es => ms + totalDelay es
  | .w _ _ _ :: es => totalDelay es
  | .wr _ _ _ _ :: es => totalDelay es

/-- The outcome of an event. -/
def answerOf : Event → Option Answer
  | .w _ _ a => some a
  | .wr _ _ _ a => some a
  | .d _ => none

/-- R76 lists the frame of the event (R88). -/
def Event.listed (p : Params) (e : Event) : Bool :=
  match txnOf e with
  | some t => t.listed p
  | none => true

/-- What halt control's last success says (R21, R126): the cached flag followed through the events. -/
def flagAfter (flag : Bool) : List Event → Bool
  | [] => flag
  | .w .dbg [0x80, 0x01] (.ok _) :: es => flagAfter true es
  | .w .dbg [0x80, 0x00] (.ok _) :: es => flagAfter false es
  | _ :: es => flagAfter flag es

/-- The disable sequence is never issued while the cached flag is true (R119). -/
def neverDisabledHalted (dis : List Byte) (flag : Bool) : List Event → Bool
  | [] => true
  | .w .dbg bs a :: es =>
      (bs != dis || !flag) && neverDisabledHalted dis (flagAfter flag [.w .dbg bs a]) es
  | _ :: es => neverDisabledHalted dis flag es

/-- The delay before a transaction (R193): 50 ms before the unlock and the disable sequence. -/
def delaysBefore (p : Params) : Event → List Event
  | .w .ddc _ _ => [.d 50]
  | .w .dbg bs _ => if bs = p.disable.bytes then [.d 50] else []
  | _ => []

/-- The delays after a transaction that succeeds (R193, R198): 50 ms after a mode sequence, 100 ms after halt control, 10 ms after
an XDATA command without the bracket, 10 ms after an EEPROM command and 10 ms more without the bracket. -/
def delaysAfter (p : Params) (halt : Bool) : Event → List Event
  | .w .ddc _ (.ok _) => [.d 50]
  | .w .dbg bs (.ok _) =>
      if bs = p.disable.bytes then [.d 50] else
      match bs with
      | [_, _] => [.d 100]
      | [_, _, _] => settleEvents halt
      | [_, _, _, _] => settleEvents halt
      | _ => .d 10 :: settleEvents halt
  | _ => []

/-- A list of transactions with exactly the delays of R193 around them. -/
def withDelays (p : Params) (halt : Bool) (es : List Event) : List Event :=
  es.flatMap fun e => delaysBefore p e ++ e :: delaysAfter p halt e

/-- The unlock and the disable sequences among the events: the real switches of debug mode (R202). -/
def modeSwitches (p : Params) (es : List Event) : Nat :=
  es.countP fun
    | .w .ddc _ _ => true
    | .w .dbg bs _ => bs == p.disable.bytes
    | _ => false

/-- The delay of one transfer (R202). -/
def transferDelay (sp : Space) (halt : Bool) : Nat :=
  match sp with
  | .isp => 0
  | .xdata => if halt then 0 else 10
  | .eeprom => if halt then 10 else 20

/-- A read setup of XDATA or EEPROM: the transaction after it is its data read (R70, R72). -/
def isReadSetup : Event → Bool
  | .w .dbg [0x3a, _, _] _ => true
  | .w .dbg [0x44, _, _, _, _] _ => true
  | _ => false

/-- A transaction that fails, but for a probe of debug mode that finds it off (R114, R165). A probe has the bytes of a data read; it is
a data read where the transaction before it is a read setup (`setup`). -/
def failing (setup : Bool) : Event → Bool
  | .wr .dbg [] 1 (.err .unreachable) => setup
  | .w _ _ (.err _) => true
  | .wr _ _ _ (.err _) => true
  | _ => false

/-- An event of the bracket's close: the run frame or its delay (R129). -/
def ofClose : Event → Bool
  | .w .dbg [0x80, 0x00] _ => true
  | .d 100 => true
  | _ => false

/-- Errors are precise (R162, R164): after the first failing transaction only the bracket's close follows. `setup` says whether the last
transaction was a read setup. -/
def precise (setup : Bool) : List Event → Bool
  | [] => true
  | e :: es => if failing setup e then es.all ofClose else precise (if e.isTxn then isReadSetup e else setup) es

/-- The phase a transaction of a range request belongs to (R28, R76, R125). A probe of debug mode stands in ModeCheck, AutoEnable
and AutoDisable, and has the bytes of a data read. -/
def emittedIn (p : Params) : Phase → Txn → Bool
  | .modeCheck, t => t == .wr .isp [0x6f] 1 || t == .wr .dbg [] 1
  | .autoEnable, t => t == .wr .dbg [] 1 || t == .w .ddc p.enable.bytes
  | .haltOpen, t => t == .w .dbg [0x80, 0x01]
  | .transfer _, .w .isp bs => bs.length == 1 || bs.length == 2
  | .transfer _, .w .dbg (c :: _) => c == 0x3a || c == 0x3b || c == 0x44 || c == 0x04
  | .transfer _, t => t == .wr .isp [] 1 || t == .wr .dbg [] 1
  | .haltClose, t => t == .w .dbg [0x80, 0x00]
  | .autoDisable, t => t == .wr .dbg [] 1 || t == .w .dbg p.disable.bytes
  | _, _ => false

/-- Which error kinds a request may answer (R161). `auto` is the policy flag, which alone admits `InvalidState` of a guarded request
and excludes `PreconditionFailed` of debug. -/
def mayRaise (i : Instr) (auto : Bool) : Err → Bool
  | .deviceUnreachable => false
  | .preconditionFailed .isp =>
      match rangeAsked i with
      | some (.isp, _) => true
      | _ => false
  | .preconditionFailed .debug => debugProtected i && !auto
  | .invalidState _ =>
      match i with
      | .dbgSetEnabled _ _ => true
      | i => debugProtected i && auto
  | .rangeError sp _ _ _ =>
      match rangeAsked i with
      | some (sp', _) => sp == sp'
      | none => false
  | .invalidPayload =>
      match rangeAsked i with
      | some (_, _, n, w) => w && n.isNone
      | none => false
  | .transportError .unreachable =>
      match i with
      | .dbgEnabled => false
      | .dbgSetAuto _ => false
      | i => isRequest i
  | .transportError .other =>
      match i with
      | .dbgSetAuto _ => false
      | i => isRequest i

/-- The invariant of the machine: the memories are canonical and inside their spaces, and a block that is Ready holds nothing of a
request but its latches (R39, R163). -/
abbrev State.Inv (s : State) : Prop :=
  s.target.wf ∧
    (s.life = .ready → s.phase = .idle ∧ s.autoTaken = false ∧ s.bracketOpen = false ∧ s.result = [] ∧ s.pendingError = none)

end Sys2Proof.Machine
end

