-- ==== Sys2Proof/Certificates/Slice0/Obligations.lean ====
section
/-! DEFINITION. The statements for the provers. Bytes, delays and windows are written as the spec writes them. -/

open Sys2Proof Sys2Proof.Machine

/-! Encoding. -/

/-- Decoding an encoded instruction gives it back, for every instruction and every value of the OPEN parameters (R76, R86, R89,
R90). That a frame is decoded with the rule that emits it is the model's choice (log 20). -/
def Obligations.DecodeEncodeAgree : Prop := ∀ (p : Params) (i : Instr), decode p (encode p i) = .instr i

/-- Words and frames written out from the encoding tables decode to what they stand for (R76, R90; V-ENC-1 to V-ENC-16). The zero
operands of a table word and the emitting rule beside a frame are the model's choice (log 1, log 20). -/
def Obligations.WordsDecode : Prop :=
  decodeTableWord 8 0x01 = some (.ispRead 0 0) ∧ decodeTableWord 8 0x36 = some (.dbgHalt false) ∧
  decodeTableWord 8 0x37 = none ∧ decodeTableWord 8 0x00 = none ∧
  decodeRequest { op := 0x13, start := some 0, last := some 15 } = .instr (.xdataDump 0 none (some 15) true) ∧
  ∀ p : Params,
    decode p (.frame .transfer (.w .isp [0xff, 0x7e])) = .instr (.fIspWr 0xff 0x7e) ∧
    decode p (.frame .haltControl (.w .dbg [0x80, 0x01])) = .instr (.fHalt true) ∧
    decode p (.frame .transfer (.w .dbg [0x3a, 0x34, 0x12])) = .instr (.fXdataRd 0x1234) ∧
    decode p (.frame .transfer (.w .dbg [0x3b, 0xcd, 0xab, 0x5a])) = .instr (.fXdataWr 0xabcd 0x5a) ∧
    decode p (.frame .transfer (.w .dbg [0x44, 0x02, 0xa0, 0x00, 0x01])) = .instr (.fEeRd 0x0102 0xa0) ∧
    decode p (.frame .transfer (.w .dbg [0x04, 0xfe, 0xa4, 0x00, 0xff])) = .instr (.fEeWr 0xfffe 0xa4 0x00)

/-- How a frame reader tells the formats apart (R87): the device, the kind and the length, the whole disable sequence first, then
byte 0; a transaction of any device and kind that R76 does not list is no frame (R88). Rows that share their bytes are read as the
data row of the transfers: the model's choice (log 20). -/
def Obligations.FrameReaderFollowsTheTable : Prop := ∀ (p : Params) (a v lo hi c : Byte) (t : Txn),
  readFrame p (.w .isp [a]) = .instr (.fIspPtr a) ∧
  readFrame p (.w .isp [a, v]) = .instr (.fIspWr a v) ∧
  readFrame p (.w .ddc p.enable.bytes) = .instr .fDbgEn ∧
  readFrame p (.w .dbg p.disable.bytes) = .instr .fDbgDis ∧
  (p.disable.bytes ≠ [0x80, 0x01] → readFrame p (.w .dbg [0x80, 0x01]) = .instr (.fHalt true)) ∧
  (p.disable.bytes ≠ [0x80, 0x00] → readFrame p (.w .dbg [0x80, 0x00]) = .instr (.fHalt false)) ∧
  readFrame p (.w .dbg [0x3a, lo, hi]) = .instr (.fXdataRd (hi ++ lo)) ∧
  readFrame p (.w .dbg [0x3b, lo, hi, v]) = .instr (.fXdataWr (hi ++ lo) v) ∧
  readFrame p (.w .dbg [0x44, lo, c, 0x00, hi]) = .instr (.fEeRd (hi ++ lo) c) ∧
  readFrame p (.w .dbg [0x04, lo, c, v, hi]) = .instr (.fEeWr (hi ++ lo) c v) ∧
  readFrame p (.wr .isp [0x6f] 1) = .instr .fIspQuery ∧
  readFrame p (.wr .isp [] 1) = .instr .fIspData ∧
  readFrame p (.wr .dbg [] 1) = .instr .fDbgData ∧
  (Txn.listed p t = false → readFrame p t = .rejected .unlistedFrame)

/-- A request with its operands, the absent ones at the defaults of the table: length 1, halt true, target 0xa0, force false; `end`
stays beside `length` on a dump (R90, R92). -/
def Obligations.RequestsDecodeWithTheirDefaults : Prop := ∀ (r : Request) (a : Int) (v : Option (List Byte)) (b : Bool),
  (r.start = some a → r.last = none →
    (r.op = 0x01 → decodeRequest r = .instr (.ispRead a (r.length.getD 1))) ∧
    (r.op = 0x11 → decodeRequest r = .instr (.xdataRead a (r.length.getD 1) (r.halt.getD true))) ∧
    (r.op = 0x21 → decodeRequest r = .instr (.eepromRead a (r.length.getD 1) (r.target.getD 0xa0) (r.halt.getD true))) ∧
    (r.payload = some v →
      (r.op = 0x02 → decodeRequest r = .instr (.ispWrite a v)) ∧
      (r.op = 0x12 → decodeRequest r = .instr (.xdataWrite a v (r.halt.getD true))) ∧
      (r.op = 0x22 → decodeRequest r = .instr (.eepromWrite a v (r.target.getD 0xa0) (r.halt.getD true))))) ∧
  (r.start = some a →
    (r.op = 0x03 → decodeRequest r = .instr (.ispDump a r.length r.last)) ∧
    (r.op = 0x13 → decodeRequest r = .instr (.xdataDump a r.length r.last (r.halt.getD true))) ∧
    (r.op = 0x23 → decodeRequest r = .instr (.eepromDump a r.length r.last (r.target.getD 0xa0) (r.halt.getD true)))) ∧
  (r.last = none →
    (r.op = 0x30 → decodeRequest r = .instr .ispEnabled) ∧
    (r.op = 0x32 → decodeRequest r = .instr .dbgEnabled) ∧
    (r.op = 0x35 → decodeRequest r = .instr .ispReset) ∧
    (r.on = some b →
      (r.op = 0x31 → decodeRequest r = .instr (.ispSetEnabled b (r.force.getD false))) ∧
      (r.op = 0x33 → decodeRequest r = .instr (.dbgSetEnabled b (r.force.getD false))) ∧
      (r.op = 0x34 → decodeRequest r = .instr (.dbgSetAuto b)) ∧
      (r.op = 0x36 → decodeRequest r = .instr (.dbgHalt b))))

/-- A malformed request is refused at the interface, with no step: a reserved code, `end` on a request that is no dump, or a
required operand missing (R91). Which of two defects is named is the model's choice (log 21). -/
def Obligations.MalformedRequestsAreRefused : Prop := ∀ (s : State) (r : Request) (rest : List HostAct),
  s.life = .ready → s.host = .request r :: rest →
  (r.op ∉ [0x01, 0x02, 0x03, 0x11, 0x12, 0x13, 0x21, 0x22, 0x23, 0x30, 0x31, 0x32, 0x33, 0x34, 0x35, 0x36] →
    step s = .refused (.malformed (.reservedOp r.op))) ∧
  (r.op ∈ [0x01, 0x02, 0x11, 0x12, 0x21, 0x22, 0x30, 0x31, 0x32, 0x33, 0x34, 0x35, 0x36] → r.last ≠ none →
    step s = .refused (.malformed .endOnNonDump)) ∧
  (r.op ∈ [0x03, 0x13, 0x23] ∨ r.op ∈ [0x01, 0x02, 0x11, 0x12, 0x21, 0x22] ∧ r.last = none → r.start = none →
    step s = .refused (.malformed (.missingOperand .start))) ∧
  (r.op ∈ [0x02, 0x12, 0x22] → r.last = none → r.start ≠ none → r.payload = none →
    step s = .refused (.malformed (.missingOperand .payload))) ∧
  (r.op ∈ [0x31, 0x33, 0x34, 0x36] → r.last = none → r.on = none →
    step s = .refused (.malformed (.missingOperand .on)))

/-- Every frame a request or a construction emits is one R76 lists, whatever the transport answers (R88). -/
def Obligations.EmittedFramesAreListed : Prop := ∀ (s t : State),
  (∀ i, isRequest i = true → exec i s = .next t → ∃ evs, t.trace = s.trace ++ evs ∧ ∀ e ∈ evs, e.listed s.cfg = true) ∧
  (construct s = .next t → ∃ evs, t.trace = s.trace ++ evs ∧ ∀ e ∈ evs, e.listed s.cfg = true)

/-- The validator admits exactly the ranges whose start and end lie in the window of the space, at any length (R105, R106, R110). A
violated start is reported before a violated end, the lower bound before the upper, each with the offending address and the bound
it crossed (R108). -/
def Obligations.ValidatorChecksTheWindow : Prop := ∀ (sp : Space) (start length hi : Int),
  hi = (match sp with | .isp => 0xff | .xdata => 0xffff | .eeprom => 0xffff) →
  (validate sp start length = none ↔ InWindow hi start length) ∧
  (start < 0 → validate sp start length = some (.rangeError sp .start start 0)) ∧
  (hi < start → validate sp start length = some (.rangeError sp .start start hi)) ∧
  (0 ≤ start → start ≤ hi → start + length - 1 < 0 →
    validate sp start length = some (.rangeError sp .stop (start + length - 1) 0)) ∧
  (0 ≤ start → start ≤ hi → hi < start + length - 1 →
    validate sp start length = some (.rangeError sp .stop (start + length - 1) hi))

/-- A step of a Ready block runs the decoded request of the host's next act, that act being done. A whole request as one step and the
list of the host's acts are the model's choice (log 2, log 4). -/
def Obligations.StepRunsTheDecodedRequest : Prop := ∀ (s : State) (r : Request) (rest : List HostAct) (i : Instr),
  s.life = .ready → s.host = .request r :: rest → decodeRequest r = .instr i → step s = exec i { s with host := rest }

/-- The state right after reset: Ready, Idle, both flags false, every per-request latch clear, no latch loaded (R39, R187).
That the machine's reset is the state after construction is the model's choice (log 3). -/
def Obligations.ResetState : Prop :=
  State.reset.life = .ready ∧ State.reset.haltedFlag = false ∧ State.reset.debugAutoEnable = false ∧
  State.reset.phase = .idle ∧ State.reset.autoTaken = false ∧ State.reset.bracketOpen = false ∧
  State.reset.result = [] ∧ State.reset.pendingError = none ∧ State.reset.latches = none

/-- Construction is one probe read of the ISP address. It succeeds: the block is Ready with both flags false. The address is
unreachable: the block is Dead, with DeviceUnreachable. The probe fails otherwise: Dead, with TransportError(Other) (R186). The
target is as the MCU's turn left it. That the outcome of a construction is recorded as a response, a success as void, is the model's
choice (log 27). -/
def Obligations.ConstructionProbesTheIspAddress : Prop := ∀ (s : State), s.life = .unbuilt →
  (s.oracle = [] → s.mcu = [] → s.target.owedWrite = 0 → ∃ b, step s = .next { s with
    life := .ready, haltedFlag := false, debugAutoEnable := false, latches := none, phase := .idle, autoTaken := false,
    bracketOpen := false, result := [], pendingError := none, trace := s.trace ++ [rOk .isp [] [b]],
    responses := s.responses ++ [.ok .void] }) ∧
  ∀ (k : ErrClass) (took : Bool) (fs : List Fate), s.oracle = .override (.err k) took :: fs → ∃ g, step s = .next { s with
    life := .dead, oracle := fs, mcu := s.mcu.tail, target := g, trace := s.trace ++ [.wr .isp [] 1 (.err k)],
    responses := s.responses ++ [.error (match k with | .unreachable => .deviceUnreachable | .other => .transportError .other)] } ∧
    (took = false ∨ s.target.owedWrite = 0 → g = s.target.mcuTurn (s.mcu.headD []))

/-- A block that is not Ready accepts no request, and a Dead block issues no frame: what the host asks is refused (R25, R58). -/
def Obligations.OnlyAReadyBlockAccepts : Prop := ∀ (i : Instr) (s : State),
  (isRequest i = true → s.life ≠ .ready → exec i s = .refused (.notReady s.life)) ∧
  (s.life = .dead → exec i s = .refused (.notReady .dead)) ∧
  (s.life = .dead → ∀ a rest, s.host = a :: rest → step s = .refused (.notReady .dead))

/-- Releasing the handle issues no bus event and leaves the target, the MCU included, as it is; the block then waits for a new
construction (R189), which is the model's form of opening a new session (log 22). -/
def Obligations.ReleaseTouchesNothing : Prop := ∀ (s : State) (rest : List HostAct),
  s.life = .ready → s.host = .newSession :: rest →
  ∃ t, step s = .next t ∧ t.life = .unbuilt ∧ t.trace = s.trace ∧ t.target = s.target ∧ t.responses = s.responses ∧
    t.host = rest ∧ t.cfg = s.cfg

/-! Every request, whatever the transport and the MCU do. -/

/-- A Ready block answers every request exactly once and is Ready and Idle again with the per-request latches clear; or a
transaction never returns, and then it is Busy for ever with no response (R25, R133, R162, R163, R170). -/
def Obligations.EveryRequestIsAnsweredOnce : Prop := ∀ (i : Instr) (s : State), isRequest i = true → s.life = .ready →
  ∃ t evs, exec i s = .next t ∧ t.trace = s.trace ++ evs ∧ t.latches = latchesOf i ∧ t.cfg = s.cfg ∧ t.host = s.host ∧
    ((t.life = .ready ∧ t.phase = .idle ∧ t.autoTaken = false ∧ t.bracketOpen = false ∧ t.result = [] ∧
        t.pendingError = none ∧ (∃ r, t.responses = s.responses ++ [r]) ∧ ∀ e ∈ evs, answerOf e ≠ some .hang) ∨
      (t.life = .busy ∧ t.responses = s.responses ∧ step t = .fault .stuck ∧
        ∃ e, evs.getLast? = some e ∧ answerOf e = some .hang))

/-- A hang leaves the sequencer at its phase: the phase that emits the frame which never returned (R133). -/
def Obligations.HangKeepsThePhase : Prop := ∀ (i : Instr) (s t : State), rangeAsked i ≠ none → exec i s = .next t →
  t.life = .busy → ∃ pre e x, t.trace = pre ++ [e] ∧ answerOf e = some .hang ∧ txnOf e = some x ∧
    emittedIn s.cfg t.phase x = true

/-- The invariant: the memories are canonical and inside their spaces, a block that is Ready holds nothing of a request but its
latches (R163). Every step keeps it, and so does every instruction, the frames included, in whatever state it is issued. The canonical
form is the model's (log 6). -/
def Obligations.TheInvariantIsKept : Prop := ∀ s t : State, s.Inv →
  (step s = .next t → t.Inv) ∧ ∀ i, exec i s = .next t → t.Inv

/-- The invariant holds after reset; the memories with nothing listed are the model's choice (log 5, log 6). -/
def Obligations.ResetMeetsTheInvariant : Prop := State.reset.Inv

/-- The cached halted flag is written by halt control only, after its frame has succeeded: after any request it says what the last
successful halt control of the request said (R21, R126, R163).
Premise: the OPEN disable sequence is no halt-control frame (R87). -/
def Obligations.HaltedFlagFollowsHaltControl : Prop := ∀ (i : Instr) (s t : State) (evs : List Event), HaltDistinct s.cfg →
  isRequest i = true → exec i s = .next t → t.trace = s.trace ++ evs → t.haltedFlag = flagAfter s.haltedFlag evs

/-- The engine never issues the disable sequence while the cached halted flag is true (R119).
Premise: the OPEN disable sequence is no halt-control frame (R87). -/
def Obligations.NeverDisabledWhileHalted : Prop := ∀ (i : Instr) (s t : State) (evs : List Event), HaltDistinct s.cfg →
  isRequest i = true → exec i s = .next t → t.trace = s.trace ++ evs →
  neverDisabledHalted s.cfg.disable.bytes s.haltedFlag evs = true

/-- A request answers only with the error kinds of its row in the table (R161). -/
def Obligations.OnlyTheListedErrorsArise : Prop := ∀ (i : Instr) (s t : State) (e : Err), isRequest i = true →
  exec i s = .next t → t.responses = s.responses ++ [.error e] → mayRaise i s.debugAutoEnable e = true

/-- Errors are precise: after the first transaction that fails, only the bracket's close follows (R162, R164). A probe of debug mode
that is not acknowledged is no failure (R114, R165); the data read of a transfer, which has the same bytes, is one. -/
def Obligations.ErrorsArePrecise : Prop := ∀ (i : Instr) (s t : State) (evs : List Event), isRequest i = true →
  exec i s = .next t → t.trace = s.trace ++ evs → precise false evs = true

/-- The delays of a request are exactly those of the table, around the transactions that have them, and no others (R193, R198,
R200).
Premise: the OPEN disable sequence is no halt-control frame (R87). -/
def Obligations.DelaysAreThoseOfTheTable : Prop := ∀ (i : Instr) (s t : State) (evs : List Event) (q : Latches),
  HaltDistinct s.cfg → latchesOf i = some q → exec i s = .next t → t.trace = s.trace ++ evs →
  evs = withDelays s.cfg q.halt (evs.filter Event.isTxn)

/-- The least time a range request that succeeds takes, from its delays alone: 100 ms for each switch of debug mode, 200 ms for
the bracket, and each transfer's own (R196, R202).
Premise: the OPEN disable sequence is no halt-control frame (R87). -/
def Obligations.MinimumDelayTime : Prop := ∀ (i : Instr) (s t : State) (evs : List Event) (sp : Space) (a n : Int) (w : Bool)
    (q : Latches) (r : Result), HaltDistinct s.cfg → rangeAsked i = some (sp, a, some n, w) → latchesOf i = some q →
  exec i s = .next t → t.trace = s.trace ++ evs → t.responses = s.responses ++ [.ok r] →
  totalDelay evs = 100 * modeSwitches s.cfg evs + (if bracketed i then 200 else 0) + transferDelay sp q.halt * n.toNat

/-- The bracket's close is not skipped: once the halt frame has succeeded, the run frame follows it in the trace, unless a
transaction never returns (R129).
Premise: the OPEN disable sequence is no halt-control frame (R87). -/
def Obligations.AnOpenBracketIsClosed : Prop := ∀ (i : Instr) (s t : State) (evs : List Event), HaltDistinct s.cfg →
  bracketed i = true → exec i s = .next t → t.trace = s.trace ++ evs → wOk .dbg [0x80, 0x01] ∈ evs → t.life = .ready →
  ∃ pre post a, evs = pre ++ .w .dbg [0x80, 0x00] a :: post ∧ wOk .dbg [0x80, 0x01] ∈ pre

/-- A dump is the read of the same range: the same trace, the same response and the same state but for the loaded latches (R157). -/
def Obligations.DumpIsRead : Prop := ∀ (s : State) (a : Int) (n e : Option Int) (h : Bool) (g : Byte),
  (∀ t, exec (.ispDump a n e) s = .next t →
    exec (.ispRead a (dumpAsks a n e)) s = .next { t with latches := latchesOf (.ispRead a (dumpAsks a n e)) }) ∧
  (∀ t, exec (.xdataDump a n e h) s = .next t →
    exec (.xdataRead a (dumpAsks a n e) h) s = .next { t with latches := latchesOf (.xdataRead a (dumpAsks a n e) h) }) ∧
  (∀ t, exec (.eepromDump a n e g h) s = .next t →
    exec (.eepromRead a (dumpAsks a n e) g h) s = .next { t with latches := latchesOf (.eepromRead a (dumpAsks a n e) g h) })

/-! The mode requests on the reference device. -/

/-- `isp.enabled` is one query; its answer is the top bit of register 0x6f, or of whatever byte the transport returns; a failure of
either class is passed through (R112, R165). Nothing is stored; the query leaves the ISP pointer at 0x6f. -/
def Obligations.IspEnabledTestsTheTopBit : Prop := ∀ s : State,
  (s.Serves → s.target.owedWrite = 0 → exec .ispEnabled s = .next
    ((s.after [rOk .isp [0x6f] [s.target.peek (.isp 0x6f)]] { s.target with ispPtr := 0x6f }).answered
      .ispEnabled (.ok (.flag ((s.target.peek (.isp 0x6f)).getLsbD 7))))) ∧
  ∀ a fs, s.life = .ready → s.oracle = .override a false :: fs → ∃ g,
    (∀ b, a = .ok [b] → exec .ispEnabled s = .next
      ((State.after { s with oracle := fs } [rOk .isp [0x6f] [b]] g).answered .ispEnabled (.ok (.flag (b.getLsbD 7))))) ∧
    (∀ k, a = .err k → exec .ispEnabled s = .next ((State.after { s with oracle := fs } [.wr .isp [0x6f] 1 (.err k)] g).answered
      .ispEnabled (.error (.transportError k)))) ∧
    (s.mcu = [] → g = s.target)

/-- `isp.set_enabled` (R113, R116): without `force` a query, and no write if the state matches; else, or with `force` and no query,
register 0x6f is written whole with 0x80 or 0x00. -/
def Obligations.SetIspEnabled : Prop := ∀ (s : State) (on : Bool), s.Serves → s.target.wf → s.target.owedWrite = 0 →
  let q := rOk .isp [0x6f] [s.target.peek (.isp 0x6f)]
  let v : Byte := if on then 0x80 else 0x00
  ((s.target.IspOn ↔ on = true) → exec (.ispSetEnabled on false) s =
    .next ((s.after [q] { s.target with ispPtr := 0x6f }).answered (.ispSetEnabled on false) (.ok .void))) ∧
  (¬(s.target.IspOn ↔ on = true) → ∃ g, exec (.ispSetEnabled on false) s =
      .next ((s.after [q, wOk .isp [0x6f, v]] g).answered (.ispSetEnabled on false) (.ok .void)) ∧
    g.Stores s.target (.isp 0x6f) v ∧ g.Modes s.target.debugMode s.target.mcuHalted 0x6f) ∧
  ∃ g, exec (.ispSetEnabled on true) s =
      .next ((s.after [wOk .isp [0x6f, v]] g).answered (.ispSetEnabled on true) (.ok .void)) ∧
    g.Stores s.target (.isp 0x6f) v ∧ g.Modes s.target.debugMode s.target.mcuHalted 0x6f

/-- `isp.set_enabled true` that completes, then `isp.enabled`: the answer is true (R74 law 1). -/
def Obligations.EnabledAfterEnabling : Prop := ∀ (s : State) (force : Bool), s.Serves → s.target.wf → ∃ t t',
  exec (.ispSetEnabled true force) s = .next t ∧ exec .ispEnabled t = .next t' ∧
    t'.responses = s.responses ++ [.ok .void, .ok (.flag true)]

/-- `dbg.enabled` is one probe of the debug address: an answer is true whatever the byte, the class Unreachable, and no other, is
false (R114, R115). Nothing is stored and no mode changes. -/
def Obligations.DbgEnabledProbes : Prop := ∀ s : State,
  (s.Serves → s.target.Answers → ∃ b g,
    exec .dbgEnabled s = .next ((s.after [rOk .dbg [] [b]] g).answered .dbgEnabled (.ok (.flag true))) ∧
    g.SameBytes s.target ∧ g.Modes true s.target.mcuHalted s.target.ispPtr) ∧
  (s.Serves → s.target.Settled → s.target.debugMode = false →
    exec .dbgEnabled s = .next ((s.after [probeOff] s.target).answered .dbgEnabled (.ok (.flag false)))) ∧
  ∀ a fs, s.life = .ready → s.oracle = .override a false :: fs → ∃ g,
    (∀ b, a = .ok [b] → exec .dbgEnabled s = .next
      ((State.after { s with oracle := fs } [rOk .dbg [] [b]] g).answered .dbgEnabled (.ok (.flag true)))) ∧
    (a = .err .unreachable → exec .dbgEnabled s = .next
      ((State.after { s with oracle := fs } [probeOff] g).answered .dbgEnabled (.ok (.flag false)))) ∧
    (a = .err .other → exec .dbgEnabled s = .next ((State.after { s with oracle := fs } [.wr .dbg [] 1 (.err .other)] g).answered
      .dbgEnabled (.error (.transportError .other)))) ∧
    (s.mcu = [] → g = s.target)

/-- `dbg.set_enabled true` (R116, R117): no more than the probe if debug mode is on; else, or with `force` and no probe, the unlock
sequence to DDC between two delays of 50 ms, and debug mode is on. -/
def Obligations.EnablingDebugMode : Prop := ∀ s : State, s.Serves → s.target.Settled →
  let en : List Event := [.d 50, wOk .ddc s.cfg.enable.bytes, .d 50]
  (s.target.debugMode = true → ∃ b g,
    exec (.dbgSetEnabled true false) s = .next ((s.after [rOk .dbg [] [b]] g).answered (.dbgSetEnabled true false) (.ok .void)) ∧
    g.SameBytes s.target ∧ g.Modes true s.target.mcuHalted s.target.ispPtr) ∧
  (s.target.debugMode = false → ∃ g,
    exec (.dbgSetEnabled true false) s =
      .next ((s.after (probeOff :: en) g).answered (.dbgSetEnabled true false) (.ok .void)) ∧
    g.SameBytes s.target ∧ g.Modes true s.target.mcuHalted s.target.ispPtr) ∧
  ∃ g, exec (.dbgSetEnabled true true) s = .next ((s.after en g).answered (.dbgSetEnabled true true) (.ok .void)) ∧
    g.SameBytes s.target ∧ g.Modes true s.target.mcuHalted s.target.ispPtr

/-- `dbg.set_enabled false` with the cached halted flag false (R116, R117): no more than the probe if debug mode is off; else, or
with `force` and no probe, the disable sequence between two delays of 50 ms, and debug mode is off. With `force` and debug mode
off, nobody acknowledges the sequence and the second delay is not issued. -/
def Obligations.DisablingDebugMode : Prop := ∀ s : State, s.Serves → s.target.Settled → s.haltedFlag = false →
  let dis : List Event := [.d 50, wOk .dbg s.cfg.disable.bytes, .d 50]
  (s.target.debugMode = false → exec (.dbgSetEnabled false false) s =
    .next ((s.after [probeOff] s.target).answered (.dbgSetEnabled false false) (.ok .void))) ∧
  (s.target.debugMode = true → ∃ b g,
    exec (.dbgSetEnabled false false) s =
      .next ((s.after (rOk .dbg [] [b] :: dis) g).answered (.dbgSetEnabled false false) (.ok .void)) ∧
    g.SameBytes s.target ∧ g.Modes false s.target.mcuHalted s.target.ispPtr) ∧
  (s.target.debugMode = true → ∃ g,
    exec (.dbgSetEnabled false true) s = .next ((s.after dis g).answered (.dbgSetEnabled false true) (.ok .void)) ∧
    g.SameBytes s.target ∧ g.Modes false s.target.mcuHalted s.target.ispPtr) ∧
  (s.target.debugMode = false → ∃ g,
    exec (.dbgSetEnabled false true) s = .next ((s.after [.d 50, .w .dbg s.cfg.disable.bytes (.err .unreachable)] g).answered
      (.dbgSetEnabled false true) (.error (.transportError .unreachable))) ∧
    g.SameBytes s.target ∧ g.Modes false s.target.mcuHalted s.target.ispPtr)

/-- `dbg.set_enabled false` while the cached halted flag is true fails with InvalidState and no write, after the probe or, with
`force`, with no event at all; if the probe finds debug mode off already, the request succeeds (R118). -/
def Obligations.DisablingWhileHaltedFails : Prop := ∀ s : State, s.life = .ready → s.haltedFlag = true →
  exec (.dbgSetEnabled false true) s =
    .next ((s.after [] s.target).answered (.dbgSetEnabled false true) (.error (.invalidState .disableWhileHalted))) ∧
  (s.Quiet → s.target.Answers → ∃ b g,
    exec (.dbgSetEnabled false false) s = .next ((s.after [rOk .dbg [] [b]] g).answered (.dbgSetEnabled false false)
      (.error (.invalidState .disableWhileHalted))) ∧
    g.SameBytes s.target ∧ g.Modes true s.target.mcuHalted s.target.ispPtr) ∧
  (s.Quiet → s.target.debugMode = false → s.target.Settled →
    exec (.dbgSetEnabled false false) s =
      .next ((s.after [probeOff] s.target).answered (.dbgSetEnabled false false) (.ok .void)))

/-- `dbg.set_auto` sets the policy flag, with no bus event and no failure, whatever the transport (R120); no other instruction writes
it (R22, R33). -/
def Obligations.SetAutoAloneWritesThePolicy : Prop := ∀ (s : State),
  (∀ on, s.life = .ready → exec (.dbgSetAuto on) s =
    .next ((State.after { s with debugAutoEnable := on } [] s.target).answered (.dbgSetAuto on) (.ok .void))) ∧
  ∀ i t, exec i s = .next t → (∀ on, i ≠ .dbgSetAuto on) → t.debugAutoEnable = s.debugAutoEnable

/-- `isp.reset` writes 0x80 to register 0x6f with no query, then sends the reset command; the engine's own flags stay. If the first
write fails, the command is not sent and the failure is passed through (R141, R165). The target is redrawn (R67). -/
def Obligations.IspResetForcesThenResets : Prop := ∀ s : State,
  (s.Serves → ∃ g,
    exec .ispReset s = .next ((s.after [wOk .isp [0x6f, 0x80], wOk .isp [0xee, 0x03]] g).answered .ispReset (.ok .void))) ∧
  ∀ k fs, s.life = .ready → s.oracle = .override (.err k) false :: fs → s.mcu = [] →
    exec .ispReset s = .next ((State.after { s with oracle := fs } [.w .isp [0x6f, 0x80] (.err k)] s.target).answered .ispReset
      (.error (.transportError k)))

/-- `dbg.halt` with the policy off: the probe, the halt command, 100 ms; the cached flag and the MCU follow `on`. Every byte reads
as before (R126, R131).
Premise: the OPEN disable sequence is no halt-control frame (R87). -/
def Obligations.HaltMcu : Prop := ∀ (s : State) (on : Bool), s.Serves → s.target.Answers → s.debugAutoEnable = false →
  HaltDistinct s.cfg → ∃ b g,
  exec (.dbgHalt on) s = .next ((State.after { s with haltedFlag := on }
    [rOk .dbg [] [b], wOk .dbg [0x80, if on then 0x01 else 0x00], .d 100] g).answered (.dbgHalt on) (.ok .void)) ∧
  g.SameBytes s.target ∧ g.Modes true on s.target.ispPtr

/-- `dbg.halt` with the policy on: debug mode is switched on if it is off; `dbg.halt false` then resumes the MCU and turns debug
mode off; `dbg.halt true` halts the MCU and then fails with InvalidState, debug mode and the flag staying on (R124, R131).
Premise: the OPEN disable sequence is no halt-control frame (R87). -/
def Obligations.HaltMcuUnderThePolicy : Prop := ∀ s : State, s.Serves → s.target.Settled → s.debugAutoEnable = true →
  HaltDistinct s.cfg →
  (∃ b b' g, exec (.dbgHalt false) s = .next ((State.after { s with haltedFlag := false }
      (enableEvents s.cfg s.target.debugMode b ++ [wOk .dbg [0x80, 0x00], .d 100] ++ disableEvents s.cfg b') g).answered
      (.dbgHalt false) (.ok .void)) ∧
    g.SameBytes s.target ∧ g.Modes false false s.target.ispPtr) ∧
  (∃ b b' g, exec (.dbgHalt true) s = .next ((State.after { s with haltedFlag := true }
      (enableEvents s.cfg s.target.debugMode b ++ [wOk .dbg [0x80, 0x01], .d 100, rOk .dbg [] [b']]) g).answered
      (.dbgHalt true) (.error (.invalidState .disableWhileHalted))) ∧
    g.SameBytes s.target ∧ g.Modes true true s.target.ispPtr)

/-! The guards and the checks. -/

/-- With ISP mode off, every ISP range request ends after its query with PreconditionFailed(ISP); with debug mode off and no policy,
every debug-protected request ends after its probe with PreconditionFailed(DEBUG), whatever its operands (R121, R122, R123,
R168). -/
def Obligations.TheGateComesFirst : Prop := ∀ (i : Instr) (s : State), s.life = .ready → s.Quiet →
  (∀ a n w, rangeAsked i = some (.isp, a, n, w) → ¬s.target.IspOn → s.target.owedWrite = 0 →
    exec i s = .next ((s.after [rOk .isp [0x6f] [s.target.peek (.isp 0x6f)]] { s.target with ispPtr := 0x6f }).answered i
      (.error (.preconditionFailed .isp)))) ∧
  (debugProtected i = true → s.debugAutoEnable = false → s.target.debugMode = false → s.target.Settled →
    exec i s = .next ((s.after [probeOff] s.target).answered i (.error (.preconditionFailed .debug))))

/-- A payload that is no list ends a write with InvalidPayload, right after the gate and whatever its start (R111, R168). -/
def Obligations.ThePayloadCheckComesNext : Prop := ∀ (i : Instr) (s : State) (sp : Space) (a : Int), s.life = .ready →
  s.Quiet → rangeAsked i = some (sp, a, none, true) →
  (sp = .isp → s.target.IspOn → s.target.owedWrite = 0 →
    exec i s = .next ((s.after [rOk .isp [0x6f] [s.target.peek (.isp 0x6f)]] { s.target with ispPtr := 0x6f }).answered i
      (.error .invalidPayload))) ∧
  (sp ≠ .isp → s.target.Answers → ∃ b g,
    exec i s = .next ((s.after [rOk .dbg [] [b]] g).answered i (.error .invalidPayload)) ∧
    g.SameBytes s.target ∧ g.Modes true s.target.mcuHalted s.target.ispPtr)

/-- A range outside the window ends a request with the validator's error, after the gate and before the bracket or any transfer
(R106, R168). Under the policy debug mode stays on (R163). -/
def Obligations.TheWindowCheckComesThird : Prop := ∀ (i : Instr) (s : State) (sp : Space) (a n : Int) (w : Bool) (e : Err),
  s.life = .ready → s.Quiet → rangeAsked i = some (sp, a, some n, w) → validate sp a n = some e →
  (sp = .isp → s.target.IspOn → s.target.owedWrite = 0 →
    exec i s = .next ((s.after [rOk .isp [0x6f] [s.target.peek (.isp 0x6f)]] { s.target with ispPtr := 0x6f }).answered i
      (.error e))) ∧
  (sp ≠ .isp → s.target.Answers → ∃ b g,
    exec i s = .next ((s.after [rOk .dbg [] [b]] g).answered i (.error e)) ∧
    g.SameBytes s.target ∧ g.Modes true s.target.mcuHalted s.target.ispPtr) ∧
  (sp ≠ .isp → s.target.debugMode = false → s.target.Settled → s.debugAutoEnable = true → ∃ g,
    exec i s = .next ((s.after [probeOff, .d 50, wOk .ddc s.cfg.enable.bytes, .d 50] g).answered i (.error e)) ∧
    g.SameBytes s.target ∧ g.Modes true s.target.mcuHalted s.target.ispPtr)

/-! The range requests on the reference device. -/

/-- `isp.read` and `isp.dump` with ISP mode on and the range in the window: the query, then one pointer write and one read per
address; the response lists the registers in ascending order. Nothing is stored, no mode changes; the ISP pointer moves (R137,
R138, R157). -/
def Obligations.IspReads : Prop := ∀ (i : Instr) (s : State) (a n : Int), ispReads i = some (a, n) → s.Serves →
  s.target.owedWrite = 0 → s.target.IspOn → InWindow 0xff a n → ∃ g,
  exec i s = .next ((s.after
    (rOk .isp [0x6f] [s.target.peek (.isp 0x6f)] :: ispReadEvents s.target a n.toNat) g).answered i
    (.ok (.bytes ((List.range n.toNat).map fun k : Nat => s.target.ispAt (a + k))))) ∧
  g.SameBytes s.target ∧ g.debugMode = s.target.debugMode ∧ g.mcuHalted = s.target.mcuHalted

/-- `isp.write` with ISP mode on and the range in the window: the query, then one 2-byte write per element. If no element is the
reset command, the registers hold the payload, every other byte reads as before and no mode of the debug interface changes
(R139, R140). -/
def Obligations.IspWrites : Prop := ∀ (s : State) (a : Int) (vs : List Byte), s.Serves → s.target.wf → s.target.owedWrite = 0 →
  s.target.IspOn → InWindow 0xff a vs.length → ∃ g,
  exec (.ispWrite a (some vs)) s = .next ((s.after
    (rOk .isp [0x6f] [s.target.peek (.isp 0x6f)] :: ispWriteEvents a vs) g).answered (.ispWrite a (some vs)) (.ok .void)) ∧
  ((∀ (k : Nat) (h : k < vs.length), ¬(a + k = 0xee ∧ vs[k] = 0x03)) →
    g.StoresAll s.target (fun k => .isp (loByte (a + k))) vs ∧ g.debugMode = s.target.debugMode ∧
      g.mcuHalted = s.target.mcuHalted)

/-- `xdata.read` and `xdata.dump` with debug mode on, the policy off and the range in the window: the probe, then the transfers,
inside the halt bracket or with 10 ms each; the response lists the bytes in ascending order. Every byte of the target reads as
before; the bracket leaves the MCU running and the cached flag false (R127, R128, R143, R144, R147, R157).
Premise, for the bracket: the OPEN disable sequence is no halt-control frame (R87). -/
def Obligations.XdataReads : Prop := ∀ (i : Instr) (s : State) (a n : Int) (h : Bool), xdataReads i = some (a, n, h) →
  s.ServesDebug h → s.target.Answers → s.debugAutoEnable = false → (h = true → HaltDistinct s.cfg) → InWindow 0xffff a n →
  ∃ b g, exec i s = .next ((State.after { s with haltedFlag := s.haltedFlag && !h }
      (rOk .dbg [] [b] :: inBracket h (xdataReadEvents s.target a n.toNat h)) g).answered i
      (.ok (.bytes ((List.range n.toNat).map fun k : Nat => s.target.xdataAt (a + k))))) ∧
    g.SameBytes s.target ∧ g.Modes true (s.target.mcuHalted && !h) s.target.ispPtr

/-- `xdata.write` with debug mode on, the policy off and the range in the window: the probe, then one write frame per element, inside
the halt bracket or with 10 ms each. The bytes hold the payload, every other byte reads as before (R145, R146, R147).
Premise, for the bracket: the OPEN disable sequence is no halt-control frame (R87). -/
def Obligations.XdataWrites : Prop := ∀ (s : State) (a : Int) (vs : List Byte) (h : Bool), s.ServesDebug h → s.target.wf →
  s.target.Answers → s.debugAutoEnable = false → (h = true → HaltDistinct s.cfg) → InWindow 0xffff a vs.length →
  ∃ b g, exec (.xdataWrite a (some vs) h) s = .next ((State.after { s with haltedFlag := s.haltedFlag && !h }
      (rOk .dbg [] [b] :: inBracket h (xdataWriteEvents a vs h)) g).answered (.xdataWrite a (some vs) h) (.ok .void)) ∧
    g.StoresAll s.target (fun k => .xdata (BitVec.ofInt 16 (a + k))) vs ∧
    g.Modes true (s.target.mcuHalted && !h) s.target.ispPtr

/-- `eeprom.read` and `eeprom.dump`, as the XDATA reads, with the EEPROM's frames: the address split around the target byte, which
is any byte, 10 ms after every command and 10 ms more without the bracket (R149, R150, R153, R155, R157).
Premise, for the bracket: the OPEN disable sequence is no halt-control frame (R87). -/
def Obligations.EepromReads : Prop := ∀ (i : Instr) (s : State) (a n : Int) (c : Byte) (h : Bool),
  eepromReads i = some (a, n, c, h) → s.ServesDebug h → s.target.Answers → s.debugAutoEnable = false →
  (h = true → HaltDistinct s.cfg) → InWindow 0xffff a n →
  ∃ b g, exec i s = .next ((State.after { s with haltedFlag := s.haltedFlag && !h }
      (rOk .dbg [] [b] :: inBracket h (eepromReadEvents s.target c a n.toNat h)) g).answered i
      (.ok (.bytes ((List.range n.toNat).map fun k : Nat => s.target.eepromAt c (a + k))))) ∧
    g.SameBytes s.target ∧ g.Modes true (s.target.mcuHalted && !h) s.target.ispPtr

/-- `eeprom.write`: one 5-byte write frame per element with the value between the target byte and the high address byte, 10 ms after
each and 10 ms more without the bracket. The locations of that target hold the payload, every other byte reads as before (R151,
R152, R153).
Premise, for the bracket: the OPEN disable sequence is no halt-control frame (R87). -/
def Obligations.EepromWrites : Prop := ∀ (s : State) (a : Int) (vs : List Byte) (c : Byte) (h : Bool), s.ServesDebug h →
  s.target.wf → s.target.Answers → s.debugAutoEnable = false → (h = true → HaltDistinct s.cfg) →
  InWindow 0xffff a vs.length →
  ∃ b g, exec (.eepromWrite a (some vs) c h) s = .next ((State.after { s with haltedFlag := s.haltedFlag && !h }
      (rOk .dbg [] [b] :: inBracket h (eepromWriteEvents c a vs h)) g).answered (.eepromWrite a (some vs) c h) (.ok .void)) ∧
    g.StoresAll s.target (fun k => .eeprom c (BitVec.ofInt 16 (a + k))) vs ∧
    g.Modes true (s.target.mcuHalted && !h) s.target.ispPtr

/-- An XDATA or EEPROM read, write or dump under the policy, with the bracket, or without it while the cached halted flag is false:
debug mode is switched on if it is off, the transfers are made, and debug mode is switched off at the end even if it was on
before (R122, R124).
Premise, for the bracket: the OPEN disable sequence is no halt-control frame (R87). -/
def Obligations.RangeRequestsUnderThePolicy : Prop := ∀ (i : Instr) (s : State) (sp : Space) (a n : Int) (w : Bool),
  rangeAsked i = some (sp, a, some n, w) → sp ≠ .isp → s.ServesDebug (bracketed i) → s.target.wf → s.target.Settled →
  s.debugAutoEnable = true → (bracketed i = true → HaltDistinct s.cfg) → (bracketed i = false → s.haltedFlag = false) →
  InWindow 0xffff a n →
  ∃ b b' g, exec i s = .next ((State.after { s with haltedFlag := false }
      (enableEvents s.cfg s.target.debugMode b ++ inBracket (bracketed i) (transferEvents s.target i) ++
        disableEvents s.cfg b') g).answered i (.ok (resultOf s.target i))) ∧
    g.HoldsAfter s.target i n.toNat ∧ g.Modes false (s.target.mcuHalted && !bracketed i) s.target.ispPtr

/-- Under the policy, an XDATA or EEPROM read, write or dump without the bracket while the cached halted flag is true fails with
InvalidState after all its transfers, what it wrote staying written; debug mode and the flag stay on (R124). -/
def Obligations.ThePolicyFailsWhileHalted : Prop := ∀ (i : Instr) (s : State) (sp : Space) (a n : Int) (w : Bool),
  rangeAsked i = some (sp, a, some n, w) → sp ≠ .isp → bracketed i = false → s.ServesDebug false → s.target.wf →
  s.target.Settled → s.debugAutoEnable = true → s.haltedFlag = true → InWindow 0xffff a n →
  ∃ b b' g, exec i s = .next ((s.after
      (enableEvents s.cfg s.target.debugMode b ++ transferEvents s.target i ++ [rOk .dbg [] [b']]) g).answered i
      (.error (.invalidState .disableWhileHalted))) ∧
    g.HoldsAfter s.target i n.toNat ∧ g.Modes true s.target.mcuHalted s.target.ispPtr

/-- Under the policy, every debug-protected request that succeeds ends with debug mode off on the reference device, whatever the MCU
writes (R124). -/
def Obligations.DebugIsOffAfterThePolicy : Prop := ∀ (i : Instr) (s t : State) (r : Result), debugProtected i = true →
  s.oracle = [] → s.target.InTime → s.debugAutoEnable = true → exec i s = .next t →
  t.responses = s.responses ++ [.ok r] → t.target.debugMode = false

/-! Failures inside the bracket. -/

/-- A transaction of any transfer of a bracketed XDATA or EEPROM request fails, under the policy or not: the transfers before it stay
performed, the close still runs, the transfer's error is reported, the cached flag is false and debug mode stays on (R52, R129, R163). The
frame that failed has taken effect or has not, as the transport says (R164; by a flag of each reported outcome, the model's choice, log
24). An EEPROM write that failed and yet took effect had no time to settle before the close, and R71 leaves its effect unspecified:
that its location holds any byte then, and that the close is answered as ever and every other byte kept, is the model's reading of
R71 and U12 (log 13).
Premise: the OPEN disable sequence is no halt-control frame (R87). -/
def Obligations.AFailedTransferClosesTheBracket : Prop := ∀ (i : Instr) (s : State) (sp : Space) (a n : Int) (w : Bool)
    (pre post : List Event) (e : Event) (k : ErrClass) (took : Bool),
  s.life = .ready → s.mcu = [] → s.target.wf → s.target.Settled → (s.target.debugMode = true ∨ s.debugAutoEnable = true) →
  HaltDistinct s.cfg → bracketed i = true → rangeAsked i = some (sp, a, some n, w) → InWindow 0xffff a n →
  transferEvents s.target i = pre ++ e :: post → e.isTxn = true →
  s.oracle = List.replicate ((if s.target.debugMode then 1 else 2) + 1 + txns pre) .device ++ [.override (.err k) took] →
  ∃ b g, exec i s = .next ((State.after { s with haltedFlag := false, oracle := [] }
      (enableEvents s.cfg s.target.debugMode b ++ [wOk .dbg [0x80, 0x01], .d 100] ++ pre ++
        [e.failed k, wOk .dbg [0x80, 0x00], .d 100]) g).answered i (.error (.transportError k))) ∧
    g.FailedAt s.target i (txns pre) took (sp == .xdata) ∧ g.Modes true false s.target.ispPtr

/-- The close of a bracketed XDATA or EEPROM request fails, after all its transfers or after one that failed, under the policy or not: the
close's error is the one reported, also over a transfer's; the cached flag and debug mode stay on, there is no delay after the
failed close and no second try (R130). The MCU stays halted unless the run frame took effect, as the transport says (R164; log 24).
After a failed EEPROM write that took effect, its location holds the element where the close took no effect, and any byte, that location
alone, where it did: the model's reading of R71 and U12 (log 13).
Premise: the OPEN disable sequence is no halt-control frame (R87). -/
def Obligations.AFailedCloseIsReported : Prop := ∀ (i : Instr) (s : State) (sp : Space) (a n : Int) (w : Bool) (k : ErrClass)
    (took : Bool),
  s.life = .ready → s.mcu = [] → s.target.wf → s.target.Settled → (s.target.debugMode = true ∨ s.debugAutoEnable = true) →
  HaltDistinct s.cfg → bracketed i = true → rangeAsked i = some (sp, a, some n, w) → InWindow 0xffff a n →
  let gate := (if s.target.debugMode then 1 else 2) + 1
  let evs := transferEvents s.target i
  let ends (b : Byte) (made : List Event) (g : Target) : Prop :=
    exec i s = .next ((State.after { s with haltedFlag := true, oracle := [] }
      (enableEvents s.cfg s.target.debugMode b ++ [wOk .dbg [0x80, 0x01], .d 100] ++ made ++
        [.w .dbg [0x80, 0x00] (.err k)]) g).answered i (.error (.transportError k))) ∧
      g.Modes true (!took) s.target.ispPtr
  (s.oracle = List.replicate (gate + txns evs) .device ++ [.override (.err k) took] →
    ∃ b g, ends b evs g ∧ g.HoldsAfter s.target i n.toNat) ∧
  ∀ (pre post : List Event) (e : Event) (k' : ErrClass) (took' : Bool), evs = pre ++ e :: post → e.isTxn = true →
    s.oracle = List.replicate (gate + txns pre) .device ++ [.override (.err k') took', .override (.err k) took] →
    ∃ b g, ends b (pre ++ [e.failed k']) g ∧ g.FailedAt s.target i (txns pre) took' (sp == .xdata || !took)

/-- The open fails: no close is attempted and the cached flag keeps its value (R126, R130).
Premise: the OPEN disable sequence is no halt-control frame (R87). -/
def Obligations.AFailedOpenIsNotClosed : Prop := ∀ (i : Instr) (s : State) (sp : Space) (a n : Int) (w took : Bool) (k : ErrClass),
  s.life = .ready → s.mcu = [] → s.oracle = [.device, .override (.err k) took] → s.target.Answers →
  s.debugAutoEnable = false → HaltDistinct s.cfg → bracketed i = true → rangeAsked i = some (sp, a, some n, w) →
  InWindow 0xffff a n → ∃ b g,
  exec i s = .next ((State.after { s with oracle := [] } [rOk .dbg [] [b], .w .dbg [0x80, 0x01] (.err k)] g).answered i
    (.error (.transportError k))) ∧
  g.SameBytes s.target ∧ g.Modes true (s.target.mcuHalted || took) s.target.ispPtr

/-! The MCU. -/

/-- Written, then read back while the host keeps the MCU halted and neither request uses the bracket: the payload in order, whatever
the MCU would write (R74 law 2, R148). -/
def Obligations.RoundTripWhileHalted : Prop := ∀ (s : State) (a : Int) (vs : List Byte), s.ServesDebug false →
  s.target.mcuHalted = true → s.target.wf → s.target.Answers → s.debugAutoEnable = false → InWindow 0xffff a vs.length →
  ∃ t t', exec (.xdataWrite a (some vs) false) s = .next t ∧ exec (.xdataRead a vs.length false) t = .next t' ∧
    t'.responses = s.responses ++ [.ok .void, .ok (.bytes vs)]

/-- Written and read back, each inside its own bracket, under the policy or not: the payload in order, provided the MCU writes none
of these addresses (R74 law 2, R148).
Premise: the OPEN disable sequence is no halt-control frame (R87). -/
def Obligations.RoundTripUnderBrackets : Prop := ∀ (s : State) (a : Int) (vs : List Byte), s.life = .ready → s.oracle = [] →
  (∀ ws ∈ s.mcu, ∀ w ∈ ws, ∀ k : Nat, k < vs.length → w.1 ≠ BitVec.ofInt 16 (a + k)) → s.target.wf → s.target.Settled →
  (s.target.debugMode = true ∨ s.debugAutoEnable = true) → HaltDistinct s.cfg → InWindow 0xffff a vs.length →
  ∃ t t', exec (.xdataWrite a (some vs) true) s = .next t ∧ exec (.xdataRead a vs.length true) t = .next t' ∧
    t'.responses = s.responses ++ [.ok .void, .ok (.bytes vs)]

/-- The halt bracket excludes the MCU: a bracketed XDATA read returns XDATA as it was when the halt frame was taken, after the MCU's
two turns before the probe and before the halt frame, whatever the MCU would write later. Without the bracket a read returns what
XDATA holds when the read is taken, the turns before the probe, the command, the delay and the read having been had (R60, R71, R73,
R197). That the MCU has one turn, of one entry of its list, right before each event is the model's choice (log 8): the spec lets it
write between any two events.
Premise: the OPEN disable sequence is no halt-control frame (R87). -/
def Obligations.TheBracketExcludesTheMcu : Prop := ∀ (s : State) (a : Int), s.life = .ready → s.oracle = [] →
  s.target.Answers → s.debugAutoEnable = false →
  (∀ i n, xdataReads i = some (a, n, true) → HaltDistinct s.cfg → InWindow 0xffff a n →
    ∃ t, exec i s = .next t ∧ t.responses = s.responses ++ [.ok (.bytes ((List.range n.toNat).map fun k : Nat =>
      ((s.target.mcuTurn (s.mcu.getD 0 [])).mcuTurn (s.mcu.getD 1 [])).xdataAt (a + k)))]) ∧
  (s.target.mcuHalted = false → InWindow 0xffff a 1 →
    ∃ t, exec (.xdataRead a 1 false) s = .next t ∧ t.responses = s.responses ++ [.ok (.bytes [(s.target.pokeXdata
      (s.mcu.getD 0 [] ++ s.mcu.getD 1 [] ++ s.mcu.getD 2 [] ++ s.mcu.getD 3 [])).xdataAt a])])

/-- A halted MCU cannot be told from one with nothing to write: two runs of a debug access without the bracket that differ only in
what the MCU would write end in states that differ only in that (R73). The list of what it would write is the model's (log 8). -/
def Obligations.AHaltedMcuIsIgnored : Prop := ∀ (i : Instr) (s t : State) (m : List (List (Addr16 × Byte))),
  rangeAsked i ≠ none → bracketed i = false → s.oracle = [] → s.target.mcuHalted = true → s.target.InTime →
  (∀ a v, i ≠ .ispWrite a v) → exec i { s with mcu := [] } = .next t →
  ∃ m', exec i { s with mcu := m } = .next { t with mcu := m' }

/-! The bus frames on the reference device. -/

/-- The ISP frames (R66): the pointer write, the data read and the probe at the pointer, the query, which also moves the pointer, the
register write, the control write of register 0x6f with the enable bit at the top, and the reset command. A host ISP write of the
bytes of the last two is the same frame with the same effect (R78). A frame as an instruction is one transaction: no request is
answered, nothing else of the engine changes (the model's choice, log 19). -/
def Obligations.IspFrames : Prop := ∀ (s : State) (a v : Byte) (on : Bool), s.life ≠ .dead → s.Quiet → s.target.wf →
  s.target.owedWrite = 0 →
  exec (.fIspPtr a) s = .next (s.after [wOk .isp [a]] { s.target with ispPtr := a }) ∧
  exec .fIspData s = .next (s.after [rOk .isp [] [s.target.peek (.isp s.target.ispPtr)]] s.target) ∧
  exec .fCtorProbe s = .next (s.after [rOk .isp [] [s.target.peek (.isp s.target.ispPtr)]] s.target) ∧
  exec .fIspQuery s = .next (s.after [rOk .isp [0x6f] [s.target.peek (.isp 0x6f)]] { s.target with ispPtr := 0x6f }) ∧
  (¬(a = 0xee ∧ v = 0x03) → ∃ g, exec (.fIspWr a v) s = .next (s.after [wOk .isp [a, v]] g) ∧
    g.Stores s.target (.isp a) v ∧ g.Modes s.target.debugMode s.target.mcuHalted a) ∧
  (∃ g, exec (.fIspCtrl on) s = .next (s.after [wOk .isp [0x6f, if on then 0x80 else 0x00]] g) ∧
    g.Stores s.target (.isp 0x6f) (if on then 0x80 else 0x00) ∧ g.Modes s.target.debugMode s.target.mcuHalted 0x6f) ∧
  exec (.fIspWr 0x6f (if on then 0x80 else 0x00)) s = exec (.fIspCtrl on) s ∧
  (∃ g, exec .fIspReset s = .next (s.after [wOk .isp [0xee, 0x03]] g)) ∧
  exec (.fIspWr 0xee 0x03) s = exec .fIspReset s

/-- `F_HALT` with debug mode on halts or runs the MCU; the cached flag is the engine's and a bare frame does not write it. Where the
OPEN disable sequence has the same bytes, both R68 and R69 match the frame: that it turns debug mode off instead and leaves the MCU
as it is, is the model's reading (log 30), after R87's order for a frame reader.
A frame as an instruction of its own is the model's choice (log 19). -/
def Obligations.HaltFrame : Prop := ∀ (s : State) (on : Bool), s.life ≠ .dead → s.Quiet → s.target.Answers → ∃ g,
  exec (.fHalt on) s = .next (s.after [wOk .dbg [0x80, if on then 0x01 else 0x00]] g) ∧ g.SameBytes s.target ∧
  (s.cfg.disable.bytes ≠ [0x80, if on then 0x01 else 0x00] → g.Modes true on s.target.ispPtr) ∧
  (s.cfg.disable.bytes = [0x80, if on then 0x01 else 0x00] → g.Modes false s.target.mcuHalted s.target.ispPtr)

/-- The debug memory frames with debug mode on (R70, R72): a read setup stores nothing and puts the byte out; a write stores one
byte.
A frame as an instruction of its own is the model's choice (log 19). -/
def Obligations.DebugMemoryFrames : Prop := ∀ (s : State) (a : Addr16) (c v : Byte), s.life ≠ .dead → s.Quiet → s.target.wf →
  s.target.Answers →
  (∃ g, exec (.fXdataRd a) s = .next (s.after [wOk .dbg [0x3a, a.extractLsb' 0 8, a.extractLsb' 8 8]] g) ∧
    g.SameBytes s.target ∧ g.Modes true s.target.mcuHalted s.target.ispPtr ∧ g.dataOut = some (s.target.peek (.xdata a))) ∧
  (∃ g, exec (.fXdataWr a v) s = .next (s.after [wOk .dbg [0x3b, a.extractLsb' 0 8, a.extractLsb' 8 8, v]] g) ∧
    g.Stores s.target (.xdata a) v ∧ g.Modes true s.target.mcuHalted s.target.ispPtr) ∧
  (∃ g, exec (.fEeRd a c) s = .next (s.after [wOk .dbg [0x44, a.extractLsb' 0 8, c, 0x00, a.extractLsb' 8 8]] g) ∧
    g.SameBytes s.target ∧ g.Modes true s.target.mcuHalted s.target.ispPtr ∧ g.dataOut = some (s.target.peek (.eeprom c a))) ∧
  (∃ g, exec (.fEeWr a c v) s = .next (s.after [wOk .dbg [0x04, a.extractLsb' 0 8, c, v, a.extractLsb' 8 8]] g) ∧
    g.Stores s.target (.eeprom c a) v ∧ g.Modes true s.target.mcuHalted s.target.ispPtr)

/-- A data read and a probe of DBG with debug mode on return one byte and store nothing (R70, R72): the byte of the location set up,
as it is when the read is taken, if the delay it owes has passed. So an XDATA setup, 10 ms where the MCU runs, and the data read
return the byte stored there (R71).
R72 gives a read with no byte put out any byte; that a probe, or a second read, returns the byte of the last setup as it stands then
is the model's reading (log 12). A frame as an instruction of its own is the model's choice (log 19). -/
def Obligations.DebugReadFrames : Prop := ∀ (s : State) (a : Addr16), s.life ≠ .dead → s.Quiet → s.target.Answers →
  (∃ b g, exec .fDbgData s = .next (s.after [rOk .dbg [] [b]] g) ∧ exec .fDbgProbe s = .next (s.after [rOk .dbg [] [b]] g) ∧
    g.SameBytes s.target ∧ g.Modes true s.target.mcuHalted s.target.ispPtr ∧
    (∀ l, s.target.readSetup = some l → s.target.owedRead = 0 → b = s.target.peek l)) ∧
  ∃ t t', exec (.fXdataRd a) s = .next t ∧
    exec .fDbgData (if s.target.mcuHalted then t else sleep 10 t) = .next t' ∧
    t'.trace.getLast? = some (rOk .dbg [] [s.target.peek (.xdata a)])

/-- The debug mode frames (R68): the unlock sequence turns debug mode on, whatever it was; the disable sequence turns it off and leaves
the MCU as it is.
A frame as an instruction of its own is the model's choice (log 19). -/
def Obligations.DebugModeFrames : Prop := ∀ (s : State), s.life ≠ .dead → s.Quiet →
  (s.target.owedWrite = 0 → ∃ g, exec .fDbgEn s = .next (s.after [wOk .ddc s.cfg.enable.bytes] g) ∧ g.SameBytes s.target ∧
    g.Modes true s.target.mcuHalted s.target.ispPtr) ∧
  (s.target.Answers → ∃ g, exec .fDbgDis s = .next (s.after [wOk .dbg s.cfg.disable.bytes] g) ∧ g.SameBytes s.target ∧
    g.Modes false s.target.mcuHalted s.target.ispPtr)

/-- While debug mode is off every frame to DBG is not acknowledged and has no effect (R68).
A frame as an instruction of its own is the model's choice (log 19). -/
def Obligations.ASilentDebugInterface : Prop := ∀ (s : State) (h : Bool) (a : Addr16) (c v : Byte), s.life ≠ .dead →
  s.Quiet → s.target.debugMode = false → s.target.Settled →
  let fails (i : Instr) : Prop := ∃ e, exec i s = .next (s.after [e] s.target) ∧ answerOf e = some (.err .unreachable)
  fails (.fHalt h) ∧ fails (.fXdataRd a) ∧ fails (.fXdataWr a v) ∧ fails (.fEeRd a c) ∧ fails (.fEeWr a c v) ∧
    fails .fDbgData ∧ fails .fDbgProbe ∧ fails .fDbgDis
end

