-- ==== Sys2Proof/Laws/Memory.lean ====
section
/-! SUPPORT. The laws of memory: a read after a write, the canonical form kept by every operation, and the same for the target's
storage. -/

namespace Sys2Proof.Machine

@[simp] theorem Memory.read_nil (a : Nat) : Memory.read [] a = Memory.blank := rfl

theorem Memory.read_eq_blank_of_lt (m : Memory) (a : Nat) (h : ∀ c ∈ m, a < c.1) : Memory.read m a = Memory.blank := by
  induction m with
  | nil => rfl
  | cons c m ih =>
    have hc := h c (by simp)
    simp only [Memory.read]
    rw [if_neg (by omega), ih fun d hd => h d (by simp [hd])]

/-- A byte written is the byte read. -/
theorem Memory.read_write_same (m : Memory) (a : Nat) (v : Byte) (h : m.Pairwise (fun x y => x.1 < y.1)) :
    Memory.read (Memory.write m a v) a = v := by
  induction m with
  | nil => simp only [Memory.write]; split <;> simp_all [Memory.read]
  | cons c m ih =>
    obtain ⟨k, b⟩ := c
    rw [List.pairwise_cons] at h
    simp only [Memory.write]
    split
    · split
      · next hlt hv =>
        rw [hv]
        refine Memory.read_eq_blank_of_lt _ _ fun d hd => ?_
        rcases List.mem_cons.1 hd with rfl | hd
        · exact hlt
        · exact Nat.lt_trans hlt (h.1 d hd)
      · simp [Memory.read]
    · split
      · next hlt heq =>
        split
        · next hv =>
          rw [hv]
          exact Memory.read_eq_blank_of_lt _ _ fun d hd => heq ▸ h.1 d hd
        · simp [Memory.read]
      · next hlt hne =>
        simp only [Memory.read]
        rw [if_neg (fun e => hne e.symm), ih h.2]

/-- A write leaves every other byte alone. -/
theorem Memory.read_write_other (m : Memory) (a x : Nat) (v : Byte) (hx : x ≠ a) :
    Memory.read (Memory.write m a v) x = Memory.read m x := by
  induction m with
  | nil => simp only [Memory.write]; split <;> simp [Memory.read, Ne.symm hx]
  | cons c m ih =>
    obtain ⟨k, b⟩ := c
    simp only [Memory.write]
    split
    · split
      · rfl
      · simp [Memory.read, Ne.symm hx]
    · split
      · next hlt heq =>
        subst heq
        split <;> simp [Memory.read, Ne.symm hx]
      · simp only [Memory.read, ih]

theorem Memory.mem_write (m : Memory) (a : Nat) (v : Byte) (c : Host.Cell) (h : c ∈ Memory.write m a v) :
    (c = (a, v) ∧ v ≠ Memory.blank) ∨ c ∈ m := by
  induction m with
  | nil => simp only [Memory.write] at h; split at h <;> simp_all
  | cons d m ih =>
    obtain ⟨k, b⟩ := d
    simp only [Memory.write] at h
    split at h
    · split at h
      · exact .inr h
      · rcases List.mem_cons.1 h with rfl | h
        · exact .inl ⟨rfl, ‹_›⟩
        · exact .inr h
    · split at h
      · split at h
        · exact .inr (List.mem_cons_of_mem _ h)
        · rcases List.mem_cons.1 h with rfl | h
          · exact .inl ⟨rfl, ‹_›⟩
          · exact .inr (List.mem_cons_of_mem _ h)
      · rcases List.mem_cons.1 h with rfl | h
        · exact .inr (by simp)
        · exact (ih h).imp id fun h => List.mem_cons_of_mem _ h

/-- A write keeps the canonical form. -/
theorem Memory.write_wf (m : Memory) (a : Nat) (v : Byte) (h : Memory.wf m) : Memory.wf (Memory.write m a v) := by
  refine ⟨?_, fun c hc => ?_⟩
  · have h1 := h.1
    clear h
    induction m with
    | nil => simp only [Memory.write]; split <;> simp
    | cons d m ih =>
      obtain ⟨k, b⟩ := d
      rw [List.pairwise_cons] at h1
      simp only [Memory.write]
      split
      · next hlt =>
        split
        · exact List.pairwise_cons.2 h1
        · refine List.pairwise_cons.2 ⟨fun d hd => ?_, List.pairwise_cons.2 h1⟩
          rcases List.mem_cons.1 hd with rfl | hd
          · exact hlt
          · exact Nat.lt_trans hlt (h1.1 d hd)
      · split
        · next hlt heq =>
          split
          · exact h1.2
          · exact List.pairwise_cons.2 ⟨fun d hd => heq ▸ h1.1 d hd, h1.2⟩
        · next hlt hne =>
          refine List.pairwise_cons.2 ⟨fun d hd => ?_, ih h1.2⟩
          rcases Memory.mem_write m a v d hd with ⟨rfl, -⟩ | hd
          · exact Nat.lt_of_le_of_ne (Nat.le_of_not_lt hlt) (fun e => hne e.symm)
          · exact h1.1 d hd
  · rcases Memory.mem_write m a v c hc with ⟨rfl, hv⟩ | hc
    · exact hv
    · exact h.2 c hc

/-- A write inside a space stays inside it. -/
theorem Memory.write_below (m : Memory) (a n : Nat) (v : Byte) (h : Memory.below m n) (ha : a < n) :
    Memory.below (Memory.write m a v) n := by
  intro c hc
  rcases Memory.mem_write m a v c hc with ⟨rfl, -⟩ | hc
  · exact ha
  · exact h c hc

theorem Memory.foldl_write_wf (ws : List (Nat × Byte)) (m : Memory) (h : Memory.wf m) :
    Memory.wf (ws.foldl (fun m w => Memory.write m w.1 w.2) m) := by
  induction ws generalizing m with
  | nil => exact h
  | cons w ws ih => exact ih _ (Memory.write_wf _ _ _ h)

theorem Memory.foldl_write_below (ws : List (Nat × Byte)) (m : Memory) (n : Nat) (hw : ∀ w ∈ ws, w.1 < n)
    (h : Memory.below m n) : Memory.below (ws.foldl (fun m w => Memory.write m w.1 w.2) m) n := by
  induction ws generalizing m with
  | nil => exact h
  | cons w ws ih =>
    exact ih _ (fun x hx => hw x (by simp [hx])) (Memory.write_below _ _ _ _ h (hw w (by simp)))

/-- The empty memory is canonical. -/
theorem Memory.nil_wf : Memory.wf [] := ⟨List.Pairwise.nil, by simp⟩

/-- A memory made of writes is canonical. -/
theorem Memory.ofWrites_wf (ws : List (Nat × Byte)) : Memory.wf (Memory.ofWrites ws) :=
  Memory.foldl_write_wf ws [] Memory.nil_wf

theorem Memory.ofWrites_below (ws : List (Nat × Byte)) (n : Nat) (hw : ∀ w ∈ ws, w.1 < n) :
    Memory.below (Memory.ofWrites ws) n :=
  Memory.foldl_write_below ws [] n hw (by simp)

/-- An EEPROM key lies inside the EEPROM space. -/
theorem eepromKey_lt (t : Byte) (a : Addr16) : eepromKey t a < 16777216 := by
  have ht := t.isLt
  have ha := a.isLt
  simp only [eepromKey]
  omega

/-- An EEPROM key names one location (R43). -/
theorem eepromKey_inj {t t' : Byte} {a a' : Addr16} (h : eepromKey t a = eepromKey t' a') : t = t' ∧ a = a' := by
  have ha := a.isLt
  have ha' := a'.isLt
  simp only [eepromKey] at h
  exact ⟨BitVec.eq_of_toNat_eq (by omega), BitVec.eq_of_toNat_eq (by omega)⟩

/-- Writing one byte of the target keeps its memories well formed. -/
theorem Target.poke_wf (t : Target) (l : Loc) (v : Byte) (h : t.wf) : (t.poke l v).wf := by
  obtain ⟨⟨h1, h2⟩, ⟨h3, h4⟩, h5, h6⟩ := h
  cases l with
  | isp a => exact ⟨⟨Memory.write_wf _ _ _ h1, Memory.write_below _ _ _ _ h2 a.isLt⟩, ⟨h3, h4⟩, h5, h6⟩
  | xdata a => exact ⟨⟨h1, h2⟩, ⟨Memory.write_wf _ _ _ h3, Memory.write_below _ _ _ _ h4 a.isLt⟩, h5, h6⟩
  | eeprom g a => exact ⟨⟨h1, h2⟩, ⟨h3, h4⟩, Memory.write_wf _ _ _ h5, Memory.write_below _ _ _ _ h6 (eepromKey_lt g a)⟩

/-- The byte written is the byte read. -/
theorem Target.peek_poke_same (t : Target) (l : Loc) (v : Byte) (h : t.wf) : (t.poke l v).peek l = v := by
  obtain ⟨⟨h1, -⟩, ⟨h3, -⟩, h5, -⟩ := h
  cases l with
  | isp a => exact Memory.read_write_same _ _ _ h1.1
  | xdata a => exact Memory.read_write_same _ _ _ h3.1
  | eeprom g a => exact Memory.read_write_same _ _ _ h5.1

/-- Every other byte of the target is left alone. -/
theorem Target.peek_poke_other (t : Target) (l x : Loc) (v : Byte) (hx : x ≠ l) : (t.poke l v).peek x = t.peek x := by
  cases l with
  | isp a =>
    cases x with
    | isp b => exact Memory.read_write_other _ _ _ _ fun e => hx (by rw [BitVec.eq_of_toNat_eq e])
    | xdata b => rfl
    | eeprom g b => rfl
  | xdata a =>
    cases x with
    | isp b => rfl
    | xdata b => exact Memory.read_write_other _ _ _ _ fun e => hx (by rw [BitVec.eq_of_toNat_eq e])
    | eeprom g b => rfl
  | eeprom g a =>
    cases x with
    | isp b => rfl
    | xdata b => rfl
    | eeprom g' b =>
      exact Memory.read_write_other _ _ _ _ fun e => hx (by obtain ⟨rfl, rfl⟩ := eepromKey_inj e; rfl)

/-- The MCU's writes keep the memories well formed. -/
theorem Target.pokeXdata_wf (ws : List (Addr16 × Byte)) (t : Target) (h : t.wf) : (t.pokeXdata ws).wf := by
  induction ws generalizing t with
  | nil => exact h
  | cons w ws ih => exact ih _ (Target.poke_wf _ _ _ h)

/-- A redrawn target is well formed whatever is drawn. -/
theorem Target.redraw_wf (t : Target) : t.redraw.wf := by
  refine ⟨⟨Memory.ofWrites_wf _, Memory.ofWrites_below _ _ ?_⟩, ⟨Memory.ofWrites_wf _, Memory.ofWrites_below _ _ ?_⟩,
    Memory.ofWrites_wf _, Memory.ofWrites_below _ _ ?_⟩
  · intro w hw
    obtain ⟨x, -, rfl⟩ := List.mem_map.1 hw
    exact x.1.isLt
  · intro w hw
    obtain ⟨x, -, rfl⟩ := List.mem_map.1 hw
    exact x.1.isLt
  · intro w hw
    obtain ⟨x, -, rfl⟩ := List.mem_map.1 hw
    exact eepromKey_lt _ _

/-- The MCU's writes change XDATA only (R73). -/
theorem Target.pokeXdata_fields (ws : List (Addr16 × Byte)) (t : Target) :
    ∃ m, t.pokeXdata ws = { t with xdata := m } := by
  induction ws generalizing t with
  | nil => exact ⟨t.xdata, rfl⟩
  | cons w ws ih =>
    obtain ⟨m, hm⟩ := ih (t.poke (.xdata w.1) w.2)
    exact ⟨m, by simpa [Target.pokeXdata, Target.poke] using hm⟩

end Sys2Proof.Machine
end

