-- ==== Sys2Proof/Laws/State.lean ====
section
/-! SUPPORT. What every named update does to every field of the state, one lemma per field and update, each true by rfl. -/

namespace Sys2Proof.Machine

@[simp] theorem State.accept_life (s : State) (q : Latches) : (s.accept q).life = .busy := rfl
@[simp] theorem State.accept_haltedFlag (s : State) (q : Latches) : (s.accept q).haltedFlag = s.haltedFlag := rfl
@[simp] theorem State.accept_debugAutoEnable (s : State) (q : Latches) : (s.accept q).debugAutoEnable = s.debugAutoEnable := rfl
@[simp] theorem State.accept_latches (s : State) (q : Latches) : (s.accept q).latches = some q := rfl
@[simp] theorem State.accept_phase (s : State) (q : Latches) : (s.accept q).phase = .idle := rfl
@[simp] theorem State.accept_autoTaken (s : State) (q : Latches) : (s.accept q).autoTaken = false := rfl
@[simp] theorem State.accept_bracketOpen (s : State) (q : Latches) : (s.accept q).bracketOpen = false := rfl
@[simp] theorem State.accept_result (s : State) (q : Latches) : (s.accept q).result = [] := rfl
@[simp] theorem State.accept_pendingError (s : State) (q : Latches) : (s.accept q).pendingError = none := rfl
@[simp] theorem State.accept_trace (s : State) (q : Latches) : (s.accept q).trace = s.trace := rfl
@[simp] theorem State.accept_responses (s : State) (q : Latches) : (s.accept q).responses = s.responses := rfl
@[simp] theorem State.accept_target (s : State) (q : Latches) : (s.accept q).target = s.target := rfl
@[simp] theorem State.accept_cfg (s : State) (q : Latches) : (s.accept q).cfg = s.cfg := rfl
@[simp] theorem State.accept_host (s : State) (q : Latches) : (s.accept q).host = s.host := rfl
@[simp] theorem State.accept_oracle (s : State) (q : Latches) : (s.accept q).oracle = s.oracle := rfl
@[simp] theorem State.accept_mcu (s : State) (q : Latches) : (s.accept q).mcu = s.mcu := rfl

@[simp] theorem State.respond_life (s : State) (r : Response) : (s.respond r).life = .ready := rfl
@[simp] theorem State.respond_haltedFlag (s : State) (r : Response) : (s.respond r).haltedFlag = s.haltedFlag := rfl
@[simp] theorem State.respond_debugAutoEnable (s : State) (r : Response) : (s.respond r).debugAutoEnable = s.debugAutoEnable := rfl
@[simp] theorem State.respond_latches (s : State) (r : Response) : (s.respond r).latches = s.latches := rfl
@[simp] theorem State.respond_phase (s : State) (r : Response) : (s.respond r).phase = .idle := rfl
@[simp] theorem State.respond_autoTaken (s : State) (r : Response) : (s.respond r).autoTaken = false := rfl
@[simp] theorem State.respond_bracketOpen (s : State) (r : Response) : (s.respond r).bracketOpen = false := rfl
@[simp] theorem State.respond_result (s : State) (r : Response) : (s.respond r).result = [] := rfl
@[simp] theorem State.respond_pendingError (s : State) (r : Response) : (s.respond r).pendingError = none := rfl
@[simp] theorem State.respond_trace (s : State) (r : Response) : (s.respond r).trace = s.trace := rfl
@[simp] theorem State.respond_responses (s : State) (r : Response) : (s.respond r).responses = s.responses ++ [r] := rfl
@[simp] theorem State.respond_target (s : State) (r : Response) : (s.respond r).target = s.target := rfl
@[simp] theorem State.respond_cfg (s : State) (r : Response) : (s.respond r).cfg = s.cfg := rfl
@[simp] theorem State.respond_host (s : State) (r : Response) : (s.respond r).host = s.host := rfl
@[simp] theorem State.respond_oracle (s : State) (r : Response) : (s.respond r).oracle = s.oracle := rfl
@[simp] theorem State.respond_mcu (s : State) (r : Response) : (s.respond r).mcu = s.mcu := rfl

@[simp] theorem State.takeError_life (s : State) (e : Err) : (s.takeError e).life = .ready := rfl
@[simp] theorem State.takeError_haltedFlag (s : State) (e : Err) : (s.takeError e).haltedFlag = s.haltedFlag := rfl
@[simp] theorem State.takeError_debugAutoEnable (s : State) (e : Err) : (s.takeError e).debugAutoEnable = s.debugAutoEnable := rfl
@[simp] theorem State.takeError_latches (s : State) (e : Err) : (s.takeError e).latches = s.latches := rfl
@[simp] theorem State.takeError_phase (s : State) (e : Err) : (s.takeError e).phase = .idle := rfl
@[simp] theorem State.takeError_autoTaken (s : State) (e : Err) : (s.takeError e).autoTaken = false := rfl
@[simp] theorem State.takeError_bracketOpen (s : State) (e : Err) : (s.takeError e).bracketOpen = false := rfl
@[simp] theorem State.takeError_result (s : State) (e : Err) : (s.takeError e).result = [] := rfl
@[simp] theorem State.takeError_pendingError (s : State) (e : Err) : (s.takeError e).pendingError = none := rfl
@[simp] theorem State.takeError_trace (s : State) (e : Err) : (s.takeError e).trace = s.trace := rfl
@[simp] theorem State.takeError_responses (s : State) (e : Err) : (s.takeError e).responses = s.responses ++ [.error e] := rfl
@[simp] theorem State.takeError_target (s : State) (e : Err) : (s.takeError e).target = s.target := rfl
@[simp] theorem State.takeError_cfg (s : State) (e : Err) : (s.takeError e).cfg = s.cfg := rfl
@[simp] theorem State.takeError_host (s : State) (e : Err) : (s.takeError e).host = s.host := rfl
@[simp] theorem State.takeError_oracle (s : State) (e : Err) : (s.takeError e).oracle = s.oracle := rfl
@[simp] theorem State.takeError_mcu (s : State) (e : Err) : (s.takeError e).mcu = s.mcu := rfl

@[simp] theorem State.release_life (s : State) : (s.release).life = .unbuilt := rfl
@[simp] theorem State.release_haltedFlag (s : State) : (s.release).haltedFlag = haltedReset := rfl
@[simp] theorem State.release_debugAutoEnable (s : State) : (s.release).debugAutoEnable = autoReset := rfl
@[simp] theorem State.release_latches (s : State) : (s.release).latches = none := rfl
@[simp] theorem State.release_phase (s : State) : (s.release).phase = .idle := rfl
@[simp] theorem State.release_autoTaken (s : State) : (s.release).autoTaken = false := rfl
@[simp] theorem State.release_bracketOpen (s : State) : (s.release).bracketOpen = false := rfl
@[simp] theorem State.release_result (s : State) : (s.release).result = [] := rfl
@[simp] theorem State.release_pendingError (s : State) : (s.release).pendingError = none := rfl
@[simp] theorem State.release_trace (s : State) : (s.release).trace = s.trace := rfl
@[simp] theorem State.release_responses (s : State) : (s.release).responses = s.responses := rfl
@[simp] theorem State.release_target (s : State) : (s.release).target = s.target := rfl
@[simp] theorem State.release_cfg (s : State) : (s.release).cfg = s.cfg := rfl
@[simp] theorem State.release_host (s : State) : (s.release).host = s.host := rfl
@[simp] theorem State.release_oracle (s : State) : (s.release).oracle = s.oracle := rfl
@[simp] theorem State.release_mcu (s : State) : (s.release).mcu = s.mcu := rfl

@[simp] theorem State.setHalted_life (s : State) (on : Bool) : (s.setHalted on).life = s.life := rfl
@[simp] theorem State.setHalted_haltedFlag (s : State) (on : Bool) : (s.setHalted on).haltedFlag = on := rfl
@[simp] theorem State.setHalted_debugAutoEnable (s : State) (on : Bool) : (s.setHalted on).debugAutoEnable = s.debugAutoEnable := rfl
@[simp] theorem State.setHalted_latches (s : State) (on : Bool) : (s.setHalted on).latches = s.latches := rfl
@[simp] theorem State.setHalted_phase (s : State) (on : Bool) : (s.setHalted on).phase = s.phase := rfl
@[simp] theorem State.setHalted_autoTaken (s : State) (on : Bool) : (s.setHalted on).autoTaken = s.autoTaken := rfl
@[simp] theorem State.setHalted_bracketOpen (s : State) (on : Bool) : (s.setHalted on).bracketOpen = s.bracketOpen := rfl
@[simp] theorem State.setHalted_result (s : State) (on : Bool) : (s.setHalted on).result = s.result := rfl
@[simp] theorem State.setHalted_pendingError (s : State) (on : Bool) : (s.setHalted on).pendingError = s.pendingError := rfl
@[simp] theorem State.setHalted_trace (s : State) (on : Bool) : (s.setHalted on).trace = s.trace := rfl
@[simp] theorem State.setHalted_responses (s : State) (on : Bool) : (s.setHalted on).responses = s.responses := rfl
@[simp] theorem State.setHalted_target (s : State) (on : Bool) : (s.setHalted on).target = s.target := rfl
@[simp] theorem State.setHalted_cfg (s : State) (on : Bool) : (s.setHalted on).cfg = s.cfg := rfl
@[simp] theorem State.setHalted_host (s : State) (on : Bool) : (s.setHalted on).host = s.host := rfl
@[simp] theorem State.setHalted_oracle (s : State) (on : Bool) : (s.setHalted on).oracle = s.oracle := rfl
@[simp] theorem State.setHalted_mcu (s : State) (on : Bool) : (s.setHalted on).mcu = s.mcu := rfl

@[simp] theorem State.setAuto_life (s : State) (on : Bool) : (s.setAuto on).life = s.life := rfl
@[simp] theorem State.setAuto_haltedFlag (s : State) (on : Bool) : (s.setAuto on).haltedFlag = s.haltedFlag := rfl
@[simp] theorem State.setAuto_debugAutoEnable (s : State) (on : Bool) : (s.setAuto on).debugAutoEnable = on := rfl
@[simp] theorem State.setAuto_latches (s : State) (on : Bool) : (s.setAuto on).latches = s.latches := rfl
@[simp] theorem State.setAuto_phase (s : State) (on : Bool) : (s.setAuto on).phase = s.phase := rfl
@[simp] theorem State.setAuto_autoTaken (s : State) (on : Bool) : (s.setAuto on).autoTaken = s.autoTaken := rfl
@[simp] theorem State.setAuto_bracketOpen (s : State) (on : Bool) : (s.setAuto on).bracketOpen = s.bracketOpen := rfl
@[simp] theorem State.setAuto_result (s : State) (on : Bool) : (s.setAuto on).result = s.result := rfl
@[simp] theorem State.setAuto_pendingError (s : State) (on : Bool) : (s.setAuto on).pendingError = s.pendingError := rfl
@[simp] theorem State.setAuto_trace (s : State) (on : Bool) : (s.setAuto on).trace = s.trace := rfl
@[simp] theorem State.setAuto_responses (s : State) (on : Bool) : (s.setAuto on).responses = s.responses := rfl
@[simp] theorem State.setAuto_target (s : State) (on : Bool) : (s.setAuto on).target = s.target := rfl
@[simp] theorem State.setAuto_cfg (s : State) (on : Bool) : (s.setAuto on).cfg = s.cfg := rfl
@[simp] theorem State.setAuto_host (s : State) (on : Bool) : (s.setAuto on).host = s.host := rfl
@[simp] theorem State.setAuto_oracle (s : State) (on : Bool) : (s.setAuto on).oracle = s.oracle := rfl
@[simp] theorem State.setAuto_mcu (s : State) (on : Bool) : (s.setAuto on).mcu = s.mcu := rfl

@[simp] theorem State.latchAuto_life (s : State) : (s.latchAuto).life = s.life := rfl
@[simp] theorem State.latchAuto_haltedFlag (s : State) : (s.latchAuto).haltedFlag = s.haltedFlag := rfl
@[simp] theorem State.latchAuto_debugAutoEnable (s : State) : (s.latchAuto).debugAutoEnable = s.debugAutoEnable := rfl
@[simp] theorem State.latchAuto_latches (s : State) : (s.latchAuto).latches = s.latches := rfl
@[simp] theorem State.latchAuto_phase (s : State) : (s.latchAuto).phase = s.phase := rfl
@[simp] theorem State.latchAuto_autoTaken (s : State) : (s.latchAuto).autoTaken = s.debugAutoEnable := rfl
@[simp] theorem State.latchAuto_bracketOpen (s : State) : (s.latchAuto).bracketOpen = s.bracketOpen := rfl
@[simp] theorem State.latchAuto_result (s : State) : (s.latchAuto).result = s.result := rfl
@[simp] theorem State.latchAuto_pendingError (s : State) : (s.latchAuto).pendingError = s.pendingError := rfl
@[simp] theorem State.latchAuto_trace (s : State) : (s.latchAuto).trace = s.trace := rfl
@[simp] theorem State.latchAuto_responses (s : State) : (s.latchAuto).responses = s.responses := rfl
@[simp] theorem State.latchAuto_target (s : State) : (s.latchAuto).target = s.target := rfl
@[simp] theorem State.latchAuto_cfg (s : State) : (s.latchAuto).cfg = s.cfg := rfl
@[simp] theorem State.latchAuto_host (s : State) : (s.latchAuto).host = s.host := rfl
@[simp] theorem State.latchAuto_oracle (s : State) : (s.latchAuto).oracle = s.oracle := rfl
@[simp] theorem State.latchAuto_mcu (s : State) : (s.latchAuto).mcu = s.mcu := rfl

@[simp] theorem State.markOpen_life (s : State) : (s.markOpen).life = s.life := rfl
@[simp] theorem State.markOpen_haltedFlag (s : State) : (s.markOpen).haltedFlag = s.haltedFlag := rfl
@[simp] theorem State.markOpen_debugAutoEnable (s : State) : (s.markOpen).debugAutoEnable = s.debugAutoEnable := rfl
@[simp] theorem State.markOpen_latches (s : State) : (s.markOpen).latches = s.latches := rfl
@[simp] theorem State.markOpen_phase (s : State) : (s.markOpen).phase = s.phase := rfl
@[simp] theorem State.markOpen_autoTaken (s : State) : (s.markOpen).autoTaken = s.autoTaken := rfl
@[simp] theorem State.markOpen_bracketOpen (s : State) : (s.markOpen).bracketOpen = true := rfl
@[simp] theorem State.markOpen_result (s : State) : (s.markOpen).result = s.result := rfl
@[simp] theorem State.markOpen_pendingError (s : State) : (s.markOpen).pendingError = s.pendingError := rfl
@[simp] theorem State.markOpen_trace (s : State) : (s.markOpen).trace = s.trace := rfl
@[simp] theorem State.markOpen_responses (s : State) : (s.markOpen).responses = s.responses := rfl
@[simp] theorem State.markOpen_target (s : State) : (s.markOpen).target = s.target := rfl
@[simp] theorem State.markOpen_cfg (s : State) : (s.markOpen).cfg = s.cfg := rfl
@[simp] theorem State.markOpen_host (s : State) : (s.markOpen).host = s.host := rfl
@[simp] theorem State.markOpen_oracle (s : State) : (s.markOpen).oracle = s.oracle := rfl
@[simp] theorem State.markOpen_mcu (s : State) : (s.markOpen).mcu = s.mcu := rfl

@[simp] theorem State.markClosed_life (s : State) : (s.markClosed).life = s.life := rfl
@[simp] theorem State.markClosed_haltedFlag (s : State) : (s.markClosed).haltedFlag = s.haltedFlag := rfl
@[simp] theorem State.markClosed_debugAutoEnable (s : State) : (s.markClosed).debugAutoEnable = s.debugAutoEnable := rfl
@[simp] theorem State.markClosed_latches (s : State) : (s.markClosed).latches = s.latches := rfl
@[simp] theorem State.markClosed_phase (s : State) : (s.markClosed).phase = s.phase := rfl
@[simp] theorem State.markClosed_autoTaken (s : State) : (s.markClosed).autoTaken = s.autoTaken := rfl
@[simp] theorem State.markClosed_bracketOpen (s : State) : (s.markClosed).bracketOpen = false := rfl
@[simp] theorem State.markClosed_result (s : State) : (s.markClosed).result = s.result := rfl
@[simp] theorem State.markClosed_pendingError (s : State) : (s.markClosed).pendingError = s.pendingError := rfl
@[simp] theorem State.markClosed_trace (s : State) : (s.markClosed).trace = s.trace := rfl
@[simp] theorem State.markClosed_responses (s : State) : (s.markClosed).responses = s.responses := rfl
@[simp] theorem State.markClosed_target (s : State) : (s.markClosed).target = s.target := rfl
@[simp] theorem State.markClosed_cfg (s : State) : (s.markClosed).cfg = s.cfg := rfl
@[simp] theorem State.markClosed_host (s : State) : (s.markClosed).host = s.host := rfl
@[simp] theorem State.markClosed_oracle (s : State) : (s.markClosed).oracle = s.oracle := rfl
@[simp] theorem State.markClosed_mcu (s : State) : (s.markClosed).mcu = s.mcu := rfl

@[simp] theorem State.push_life (s : State) (b : Byte) : (s.push b).life = s.life := rfl
@[simp] theorem State.push_haltedFlag (s : State) (b : Byte) : (s.push b).haltedFlag = s.haltedFlag := rfl
@[simp] theorem State.push_debugAutoEnable (s : State) (b : Byte) : (s.push b).debugAutoEnable = s.debugAutoEnable := rfl
@[simp] theorem State.push_latches (s : State) (b : Byte) : (s.push b).latches = s.latches := rfl
@[simp] theorem State.push_phase (s : State) (b : Byte) : (s.push b).phase = s.phase := rfl
@[simp] theorem State.push_autoTaken (s : State) (b : Byte) : (s.push b).autoTaken = s.autoTaken := rfl
@[simp] theorem State.push_bracketOpen (s : State) (b : Byte) : (s.push b).bracketOpen = s.bracketOpen := rfl
@[simp] theorem State.push_result (s : State) (b : Byte) : (s.push b).result = s.result ++ [b] := rfl
@[simp] theorem State.push_pendingError (s : State) (b : Byte) : (s.push b).pendingError = s.pendingError := rfl
@[simp] theorem State.push_trace (s : State) (b : Byte) : (s.push b).trace = s.trace := rfl
@[simp] theorem State.push_responses (s : State) (b : Byte) : (s.push b).responses = s.responses := rfl
@[simp] theorem State.push_target (s : State) (b : Byte) : (s.push b).target = s.target := rfl
@[simp] theorem State.push_cfg (s : State) (b : Byte) : (s.push b).cfg = s.cfg := rfl
@[simp] theorem State.push_host (s : State) (b : Byte) : (s.push b).host = s.host := rfl
@[simp] theorem State.push_oracle (s : State) (b : Byte) : (s.push b).oracle = s.oracle := rfl
@[simp] theorem State.push_mcu (s : State) (b : Byte) : (s.push b).mcu = s.mcu := rfl

@[simp] theorem State.pend_life (s : State) (e : Err) : (s.pend e).life = s.life := rfl
@[simp] theorem State.pend_haltedFlag (s : State) (e : Err) : (s.pend e).haltedFlag = s.haltedFlag := rfl
@[simp] theorem State.pend_debugAutoEnable (s : State) (e : Err) : (s.pend e).debugAutoEnable = s.debugAutoEnable := rfl
@[simp] theorem State.pend_latches (s : State) (e : Err) : (s.pend e).latches = s.latches := rfl
@[simp] theorem State.pend_phase (s : State) (e : Err) : (s.pend e).phase = s.phase := rfl
@[simp] theorem State.pend_autoTaken (s : State) (e : Err) : (s.pend e).autoTaken = s.autoTaken := rfl
@[simp] theorem State.pend_bracketOpen (s : State) (e : Err) : (s.pend e).bracketOpen = s.bracketOpen := rfl
@[simp] theorem State.pend_result (s : State) (e : Err) : (s.pend e).result = s.result := rfl
@[simp] theorem State.pend_pendingError (s : State) (e : Err) : (s.pend e).pendingError = some e := rfl
@[simp] theorem State.pend_trace (s : State) (e : Err) : (s.pend e).trace = s.trace := rfl
@[simp] theorem State.pend_responses (s : State) (e : Err) : (s.pend e).responses = s.responses := rfl
@[simp] theorem State.pend_target (s : State) (e : Err) : (s.pend e).target = s.target := rfl
@[simp] theorem State.pend_cfg (s : State) (e : Err) : (s.pend e).cfg = s.cfg := rfl
@[simp] theorem State.pend_host (s : State) (e : Err) : (s.pend e).host = s.host := rfl
@[simp] theorem State.pend_oracle (s : State) (e : Err) : (s.pend e).oracle = s.oracle := rfl
@[simp] theorem State.pend_mcu (s : State) (e : Err) : (s.pend e).mcu = s.mcu := rfl

@[simp] theorem State.move_life (s : State) (b : Bool) (n : Nat) (p : Bool) : (s.move b n p).life = s.life := rfl
@[simp] theorem State.move_haltedFlag (s : State) (b : Bool) (n : Nat) (p : Bool) : (s.move b n p).haltedFlag = s.haltedFlag := rfl
@[simp] theorem State.move_debugAutoEnable (s : State) (b : Bool) (n : Nat) (p : Bool) : (s.move b n p).debugAutoEnable = s.debugAutoEnable := rfl
@[simp] theorem State.move_latches (s : State) (b : Bool) (n : Nat) (p : Bool) : (s.move b n p).latches = s.latches := rfl
@[simp] theorem State.move_phase (s : State) (b : Bool) (n : Nat) (p : Bool) : (s.move b n p).phase = nextPhase (s.facts b n) p s.phase := rfl
@[simp] theorem State.move_autoTaken (s : State) (b : Bool) (n : Nat) (p : Bool) : (s.move b n p).autoTaken = s.autoTaken := rfl
@[simp] theorem State.move_bracketOpen (s : State) (b : Bool) (n : Nat) (p : Bool) : (s.move b n p).bracketOpen = s.bracketOpen := rfl
@[simp] theorem State.move_result (s : State) (b : Bool) (n : Nat) (p : Bool) : (s.move b n p).result = s.result := rfl
@[simp] theorem State.move_pendingError (s : State) (b : Bool) (n : Nat) (p : Bool) : (s.move b n p).pendingError = s.pendingError := rfl
@[simp] theorem State.move_trace (s : State) (b : Bool) (n : Nat) (p : Bool) : (s.move b n p).trace = s.trace := rfl
@[simp] theorem State.move_responses (s : State) (b : Bool) (n : Nat) (p : Bool) : (s.move b n p).responses = s.responses := rfl
@[simp] theorem State.move_target (s : State) (b : Bool) (n : Nat) (p : Bool) : (s.move b n p).target = s.target := rfl
@[simp] theorem State.move_cfg (s : State) (b : Bool) (n : Nat) (p : Bool) : (s.move b n p).cfg = s.cfg := rfl
@[simp] theorem State.move_host (s : State) (b : Bool) (n : Nat) (p : Bool) : (s.move b n p).host = s.host := rfl
@[simp] theorem State.move_oracle (s : State) (b : Bool) (n : Nat) (p : Bool) : (s.move b n p).oracle = s.oracle := rfl
@[simp] theorem State.move_mcu (s : State) (b : Bool) (n : Nat) (p : Bool) : (s.move b n p).mcu = s.mcu := rfl

@[simp] theorem State.place_life (s : State) (ph : Phase) : (s.place ph).life = s.life := rfl
@[simp] theorem State.place_haltedFlag (s : State) (ph : Phase) : (s.place ph).haltedFlag = s.haltedFlag := rfl
@[simp] theorem State.place_debugAutoEnable (s : State) (ph : Phase) : (s.place ph).debugAutoEnable = s.debugAutoEnable := rfl
@[simp] theorem State.place_latches (s : State) (ph : Phase) : (s.place ph).latches = s.latches := rfl
@[simp] theorem State.place_phase (s : State) (ph : Phase) : (s.place ph).phase = ph := rfl
@[simp] theorem State.place_autoTaken (s : State) (ph : Phase) : (s.place ph).autoTaken = s.autoTaken := rfl
@[simp] theorem State.place_bracketOpen (s : State) (ph : Phase) : (s.place ph).bracketOpen = s.bracketOpen := rfl
@[simp] theorem State.place_result (s : State) (ph : Phase) : (s.place ph).result = s.result := rfl
@[simp] theorem State.place_pendingError (s : State) (ph : Phase) : (s.place ph).pendingError = s.pendingError := rfl
@[simp] theorem State.place_trace (s : State) (ph : Phase) : (s.place ph).trace = s.trace := rfl
@[simp] theorem State.place_responses (s : State) (ph : Phase) : (s.place ph).responses = s.responses := rfl
@[simp] theorem State.place_target (s : State) (ph : Phase) : (s.place ph).target = s.target := rfl
@[simp] theorem State.place_cfg (s : State) (ph : Phase) : (s.place ph).cfg = s.cfg := rfl
@[simp] theorem State.place_host (s : State) (ph : Phase) : (s.place ph).host = s.host := rfl
@[simp] theorem State.place_oracle (s : State) (ph : Phase) : (s.place ph).oracle = s.oracle := rfl
@[simp] theorem State.place_mcu (s : State) (ph : Phase) : (s.place ph).mcu = s.mcu := rfl

@[simp] theorem State.mcuActs_life (s : State) : (s.mcuActs).life = s.life := rfl
@[simp] theorem State.mcuActs_haltedFlag (s : State) : (s.mcuActs).haltedFlag = s.haltedFlag := rfl
@[simp] theorem State.mcuActs_debugAutoEnable (s : State) : (s.mcuActs).debugAutoEnable = s.debugAutoEnable := rfl
@[simp] theorem State.mcuActs_latches (s : State) : (s.mcuActs).latches = s.latches := rfl
@[simp] theorem State.mcuActs_phase (s : State) : (s.mcuActs).phase = s.phase := rfl
@[simp] theorem State.mcuActs_autoTaken (s : State) : (s.mcuActs).autoTaken = s.autoTaken := rfl
@[simp] theorem State.mcuActs_bracketOpen (s : State) : (s.mcuActs).bracketOpen = s.bracketOpen := rfl
@[simp] theorem State.mcuActs_result (s : State) : (s.mcuActs).result = s.result := rfl
@[simp] theorem State.mcuActs_pendingError (s : State) : (s.mcuActs).pendingError = s.pendingError := rfl
@[simp] theorem State.mcuActs_trace (s : State) : (s.mcuActs).trace = s.trace := rfl
@[simp] theorem State.mcuActs_responses (s : State) : (s.mcuActs).responses = s.responses := rfl
@[simp] theorem State.mcuActs_target (s : State) : (s.mcuActs).target = s.target.mcuTurn (s.mcu.headD []) := rfl
@[simp] theorem State.mcuActs_cfg (s : State) : (s.mcuActs).cfg = s.cfg := rfl
@[simp] theorem State.mcuActs_host (s : State) : (s.mcuActs).host = s.host := rfl
@[simp] theorem State.mcuActs_oracle (s : State) : (s.mcuActs).oracle = s.oracle := rfl
@[simp] theorem State.mcuActs_mcu (s : State) : (s.mcuActs).mcu = s.mcu.tail := rfl

@[simp] theorem State.dropFate_life (s : State) : (s.dropFate).life = s.life := rfl
@[simp] theorem State.dropFate_haltedFlag (s : State) : (s.dropFate).haltedFlag = s.haltedFlag := rfl
@[simp] theorem State.dropFate_debugAutoEnable (s : State) : (s.dropFate).debugAutoEnable = s.debugAutoEnable := rfl
@[simp] theorem State.dropFate_latches (s : State) : (s.dropFate).latches = s.latches := rfl
@[simp] theorem State.dropFate_phase (s : State) : (s.dropFate).phase = s.phase := rfl
@[simp] theorem State.dropFate_autoTaken (s : State) : (s.dropFate).autoTaken = s.autoTaken := rfl
@[simp] theorem State.dropFate_bracketOpen (s : State) : (s.dropFate).bracketOpen = s.bracketOpen := rfl
@[simp] theorem State.dropFate_result (s : State) : (s.dropFate).result = s.result := rfl
@[simp] theorem State.dropFate_pendingError (s : State) : (s.dropFate).pendingError = s.pendingError := rfl
@[simp] theorem State.dropFate_trace (s : State) : (s.dropFate).trace = s.trace := rfl
@[simp] theorem State.dropFate_responses (s : State) : (s.dropFate).responses = s.responses := rfl
@[simp] theorem State.dropFate_target (s : State) : (s.dropFate).target = s.target := rfl
@[simp] theorem State.dropFate_cfg (s : State) : (s.dropFate).cfg = s.cfg := rfl
@[simp] theorem State.dropFate_host (s : State) : (s.dropFate).host = s.host := rfl
@[simp] theorem State.dropFate_oracle (s : State) : (s.dropFate).oracle = s.oracle.tail := rfl
@[simp] theorem State.dropFate_mcu (s : State) : (s.dropFate).mcu = s.mcu := rfl

@[simp] theorem State.record_life (s : State) (e : Event) (g : Target) : (s.record e g).life = s.life := rfl
@[simp] theorem State.record_haltedFlag (s : State) (e : Event) (g : Target) : (s.record e g).haltedFlag = s.haltedFlag := rfl
@[simp] theorem State.record_debugAutoEnable (s : State) (e : Event) (g : Target) : (s.record e g).debugAutoEnable = s.debugAutoEnable := rfl
@[simp] theorem State.record_latches (s : State) (e : Event) (g : Target) : (s.record e g).latches = s.latches := rfl
@[simp] theorem State.record_phase (s : State) (e : Event) (g : Target) : (s.record e g).phase = s.phase := rfl
@[simp] theorem State.record_autoTaken (s : State) (e : Event) (g : Target) : (s.record e g).autoTaken = s.autoTaken := rfl
@[simp] theorem State.record_bracketOpen (s : State) (e : Event) (g : Target) : (s.record e g).bracketOpen = s.bracketOpen := rfl
@[simp] theorem State.record_result (s : State) (e : Event) (g : Target) : (s.record e g).result = s.result := rfl
@[simp] theorem State.record_pendingError (s : State) (e : Event) (g : Target) : (s.record e g).pendingError = s.pendingError := rfl
@[simp] theorem State.record_trace (s : State) (e : Event) (g : Target) : (s.record e g).trace = s.trace ++ [e] := rfl
@[simp] theorem State.record_responses (s : State) (e : Event) (g : Target) : (s.record e g).responses = s.responses := rfl
@[simp] theorem State.record_target (s : State) (e : Event) (g : Target) : (s.record e g).target = g := rfl
@[simp] theorem State.record_cfg (s : State) (e : Event) (g : Target) : (s.record e g).cfg = s.cfg := rfl
@[simp] theorem State.record_host (s : State) (e : Event) (g : Target) : (s.record e g).host = s.host := rfl
@[simp] theorem State.record_oracle (s : State) (e : Event) (g : Target) : (s.record e g).oracle = s.oracle := rfl
@[simp] theorem State.record_mcu (s : State) (e : Event) (g : Target) : (s.record e g).mcu = s.mcu := rfl

@[simp] theorem State.stuck_life (s : State) : (s.stuck).life = .busy := rfl
@[simp] theorem State.stuck_haltedFlag (s : State) : (s.stuck).haltedFlag = s.haltedFlag := rfl
@[simp] theorem State.stuck_debugAutoEnable (s : State) : (s.stuck).debugAutoEnable = s.debugAutoEnable := rfl
@[simp] theorem State.stuck_latches (s : State) : (s.stuck).latches = s.latches := rfl
@[simp] theorem State.stuck_phase (s : State) : (s.stuck).phase = s.phase := rfl
@[simp] theorem State.stuck_autoTaken (s : State) : (s.stuck).autoTaken = s.autoTaken := rfl
@[simp] theorem State.stuck_bracketOpen (s : State) : (s.stuck).bracketOpen = s.bracketOpen := rfl
@[simp] theorem State.stuck_result (s : State) : (s.stuck).result = s.result := rfl
@[simp] theorem State.stuck_pendingError (s : State) : (s.stuck).pendingError = s.pendingError := rfl
@[simp] theorem State.stuck_trace (s : State) : (s.stuck).trace = s.trace := rfl
@[simp] theorem State.stuck_responses (s : State) : (s.stuck).responses = s.responses := rfl
@[simp] theorem State.stuck_target (s : State) : (s.stuck).target = s.target := rfl
@[simp] theorem State.stuck_cfg (s : State) : (s.stuck).cfg = s.cfg := rfl
@[simp] theorem State.stuck_host (s : State) : (s.stuck).host = s.host := rfl
@[simp] theorem State.stuck_oracle (s : State) : (s.stuck).oracle = s.oracle := rfl
@[simp] theorem State.stuck_mcu (s : State) : (s.stuck).mcu = s.mcu := rfl

@[simp] theorem State.actDone_life (s : State) : (s.actDone).life = s.life := rfl
@[simp] theorem State.actDone_haltedFlag (s : State) : (s.actDone).haltedFlag = s.haltedFlag := rfl
@[simp] theorem State.actDone_debugAutoEnable (s : State) : (s.actDone).debugAutoEnable = s.debugAutoEnable := rfl
@[simp] theorem State.actDone_latches (s : State) : (s.actDone).latches = s.latches := rfl
@[simp] theorem State.actDone_phase (s : State) : (s.actDone).phase = s.phase := rfl
@[simp] theorem State.actDone_autoTaken (s : State) : (s.actDone).autoTaken = s.autoTaken := rfl
@[simp] theorem State.actDone_bracketOpen (s : State) : (s.actDone).bracketOpen = s.bracketOpen := rfl
@[simp] theorem State.actDone_result (s : State) : (s.actDone).result = s.result := rfl
@[simp] theorem State.actDone_pendingError (s : State) : (s.actDone).pendingError = s.pendingError := rfl
@[simp] theorem State.actDone_trace (s : State) : (s.actDone).trace = s.trace := rfl
@[simp] theorem State.actDone_responses (s : State) : (s.actDone).responses = s.responses := rfl
@[simp] theorem State.actDone_target (s : State) : (s.actDone).target = s.target := rfl
@[simp] theorem State.actDone_cfg (s : State) : (s.actDone).cfg = s.cfg := rfl
@[simp] theorem State.actDone_host (s : State) : (s.actDone).host = s.host.tail := rfl
@[simp] theorem State.actDone_oracle (s : State) : (s.actDone).oracle = s.oracle := rfl
@[simp] theorem State.actDone_mcu (s : State) : (s.actDone).mcu = s.mcu := rfl

@[simp] theorem State.offer_life (s : State) (r : Request) : (s.offer r).life = .ready := rfl
@[simp] theorem State.offer_haltedFlag (s : State) (r : Request) : (s.offer r).haltedFlag = s.haltedFlag := rfl
@[simp] theorem State.offer_debugAutoEnable (s : State) (r : Request) : (s.offer r).debugAutoEnable = s.debugAutoEnable := rfl
@[simp] theorem State.offer_latches (s : State) (r : Request) : (s.offer r).latches = s.latches := rfl
@[simp] theorem State.offer_phase (s : State) (r : Request) : (s.offer r).phase = s.phase := rfl
@[simp] theorem State.offer_autoTaken (s : State) (r : Request) : (s.offer r).autoTaken = s.autoTaken := rfl
@[simp] theorem State.offer_bracketOpen (s : State) (r : Request) : (s.offer r).bracketOpen = s.bracketOpen := rfl
@[simp] theorem State.offer_result (s : State) (r : Request) : (s.offer r).result = s.result := rfl
@[simp] theorem State.offer_pendingError (s : State) (r : Request) : (s.offer r).pendingError = s.pendingError := rfl
@[simp] theorem State.offer_trace (s : State) (r : Request) : (s.offer r).trace = s.trace := rfl
@[simp] theorem State.offer_responses (s : State) (r : Request) : (s.offer r).responses = s.responses := rfl
@[simp] theorem State.offer_target (s : State) (r : Request) : (s.offer r).target = s.target := rfl
@[simp] theorem State.offer_cfg (s : State) (r : Request) : (s.offer r).cfg = s.cfg := rfl
@[simp] theorem State.offer_host (s : State) (r : Request) : (s.offer r).host = .request r :: s.host := rfl
@[simp] theorem State.offer_oracle (s : State) (r : Request) : (s.offer r).oracle = s.oracle := rfl
@[simp] theorem State.offer_mcu (s : State) (r : Request) : (s.offer r).mcu = s.mcu := rfl

@[simp] theorem State.built_life (s : State) : (s.built).life = .ready := rfl
@[simp] theorem State.built_haltedFlag (s : State) : (s.built).haltedFlag = haltedReset := rfl
@[simp] theorem State.built_debugAutoEnable (s : State) : (s.built).debugAutoEnable = autoReset := rfl
@[simp] theorem State.built_latches (s : State) : (s.built).latches = none := rfl
@[simp] theorem State.built_phase (s : State) : (s.built).phase = .idle := rfl
@[simp] theorem State.built_autoTaken (s : State) : (s.built).autoTaken = false := rfl
@[simp] theorem State.built_bracketOpen (s : State) : (s.built).bracketOpen = false := rfl
@[simp] theorem State.built_result (s : State) : (s.built).result = [] := rfl
@[simp] theorem State.built_pendingError (s : State) : (s.built).pendingError = none := rfl
@[simp] theorem State.built_trace (s : State) : (s.built).trace = s.trace := rfl
@[simp] theorem State.built_responses (s : State) : (s.built).responses = s.responses ++ [.ok .void] := rfl
@[simp] theorem State.built_target (s : State) : (s.built).target = s.target := rfl
@[simp] theorem State.built_cfg (s : State) : (s.built).cfg = s.cfg := rfl
@[simp] theorem State.built_host (s : State) : (s.built).host = s.host := rfl
@[simp] theorem State.built_oracle (s : State) : (s.built).oracle = s.oracle := rfl
@[simp] theorem State.built_mcu (s : State) : (s.built).mcu = s.mcu := rfl

@[simp] theorem State.die_life (s : State) (e : Err) : (s.die e).life = .dead := rfl
@[simp] theorem State.die_haltedFlag (s : State) (e : Err) : (s.die e).haltedFlag = s.haltedFlag := rfl
@[simp] theorem State.die_debugAutoEnable (s : State) (e : Err) : (s.die e).debugAutoEnable = s.debugAutoEnable := rfl
@[simp] theorem State.die_latches (s : State) (e : Err) : (s.die e).latches = s.latches := rfl
@[simp] theorem State.die_phase (s : State) (e : Err) : (s.die e).phase = s.phase := rfl
@[simp] theorem State.die_autoTaken (s : State) (e : Err) : (s.die e).autoTaken = s.autoTaken := rfl
@[simp] theorem State.die_bracketOpen (s : State) (e : Err) : (s.die e).bracketOpen = s.bracketOpen := rfl
@[simp] theorem State.die_result (s : State) (e : Err) : (s.die e).result = s.result := rfl
@[simp] theorem State.die_pendingError (s : State) (e : Err) : (s.die e).pendingError = s.pendingError := rfl
@[simp] theorem State.die_trace (s : State) (e : Err) : (s.die e).trace = s.trace := rfl
@[simp] theorem State.die_responses (s : State) (e : Err) : (s.die e).responses = s.responses ++ [.error e] := rfl
@[simp] theorem State.die_target (s : State) (e : Err) : (s.die e).target = s.target := rfl
@[simp] theorem State.die_cfg (s : State) (e : Err) : (s.die e).cfg = s.cfg := rfl
@[simp] theorem State.die_host (s : State) (e : Err) : (s.die e).host = s.host := rfl
@[simp] theorem State.die_oracle (s : State) (e : Err) : (s.die e).oracle = s.oracle := rfl
@[simp] theorem State.die_mcu (s : State) (e : Err) : (s.die e).mcu = s.mcu := rfl

@[simp] theorem sleep_life (s : State) (ms : Nat) : (sleep ms s).life = s.life := rfl
@[simp] theorem sleep_haltedFlag (s : State) (ms : Nat) : (sleep ms s).haltedFlag = s.haltedFlag := rfl
@[simp] theorem sleep_debugAutoEnable (s : State) (ms : Nat) : (sleep ms s).debugAutoEnable = s.debugAutoEnable := rfl
@[simp] theorem sleep_latches (s : State) (ms : Nat) : (sleep ms s).latches = s.latches := rfl
@[simp] theorem sleep_phase (s : State) (ms : Nat) : (sleep ms s).phase = s.phase := rfl
@[simp] theorem sleep_autoTaken (s : State) (ms : Nat) : (sleep ms s).autoTaken = s.autoTaken := rfl
@[simp] theorem sleep_bracketOpen (s : State) (ms : Nat) : (sleep ms s).bracketOpen = s.bracketOpen := rfl
@[simp] theorem sleep_result (s : State) (ms : Nat) : (sleep ms s).result = s.result := rfl
@[simp] theorem sleep_pendingError (s : State) (ms : Nat) : (sleep ms s).pendingError = s.pendingError := rfl
@[simp] theorem sleep_trace (s : State) (ms : Nat) : (sleep ms s).trace = s.trace ++ [.d ms] := rfl
@[simp] theorem sleep_responses (s : State) (ms : Nat) : (sleep ms s).responses = s.responses := rfl
@[simp] theorem sleep_target (s : State) (ms : Nat) : (sleep ms s).target = (s.target.mcuTurn (s.mcu.headD [])).wait ms := rfl
@[simp] theorem sleep_cfg (s : State) (ms : Nat) : (sleep ms s).cfg = s.cfg := rfl
@[simp] theorem sleep_host (s : State) (ms : Nat) : (sleep ms s).host = s.host := rfl
@[simp] theorem sleep_oracle (s : State) (ms : Nat) : (sleep ms s).oracle = s.oracle := rfl
@[simp] theorem sleep_mcu (s : State) (ms : Nat) : (sleep ms s).mcu = s.mcu.tail := rfl

@[simp] theorem Plan.move_life (p : Plan) (b : Bool) (s : State) : (p.move b s).life = s.life := rfl
@[simp] theorem Plan.move_haltedFlag (p : Plan) (b : Bool) (s : State) : (p.move b s).haltedFlag = s.haltedFlag := rfl
@[simp] theorem Plan.move_debugAutoEnable (p : Plan) (b : Bool) (s : State) : (p.move b s).debugAutoEnable = s.debugAutoEnable := rfl
@[simp] theorem Plan.move_latches (p : Plan) (b : Bool) (s : State) : (p.move b s).latches = s.latches := rfl
@[simp] theorem Plan.move_phase (p : Plan) (b : Bool) (s : State) : (p.move b s).phase = nextPhase (s.facts p.bracket p.count) b s.phase := rfl
@[simp] theorem Plan.move_autoTaken (p : Plan) (b : Bool) (s : State) : (p.move b s).autoTaken = s.autoTaken := rfl
@[simp] theorem Plan.move_bracketOpen (p : Plan) (b : Bool) (s : State) : (p.move b s).bracketOpen = s.bracketOpen := rfl
@[simp] theorem Plan.move_result (p : Plan) (b : Bool) (s : State) : (p.move b s).result = s.result := rfl
@[simp] theorem Plan.move_pendingError (p : Plan) (b : Bool) (s : State) : (p.move b s).pendingError = s.pendingError := rfl
@[simp] theorem Plan.move_trace (p : Plan) (b : Bool) (s : State) : (p.move b s).trace = s.trace := rfl
@[simp] theorem Plan.move_responses (p : Plan) (b : Bool) (s : State) : (p.move b s).responses = s.responses := rfl
@[simp] theorem Plan.move_target (p : Plan) (b : Bool) (s : State) : (p.move b s).target = s.target := rfl
@[simp] theorem Plan.move_cfg (p : Plan) (b : Bool) (s : State) : (p.move b s).cfg = s.cfg := rfl
@[simp] theorem Plan.move_host (p : Plan) (b : Bool) (s : State) : (p.move b s).host = s.host := rfl
@[simp] theorem Plan.move_oracle (p : Plan) (b : Bool) (s : State) : (p.move b s).oracle = s.oracle := rfl
@[simp] theorem Plan.move_mcu (p : Plan) (b : Bool) (s : State) : (p.move b s).mcu = s.mcu := rfl

@[simp] theorem Target.wait_isp (t : Target) (ms : Nat) : (t.wait ms).isp = t.isp := rfl
@[simp] theorem Target.wait_ispPtr (t : Target) (ms : Nat) : (t.wait ms).ispPtr = t.ispPtr := rfl
@[simp] theorem Target.wait_debugMode (t : Target) (ms : Nat) : (t.wait ms).debugMode = t.debugMode := rfl
@[simp] theorem Target.wait_mcuHalted (t : Target) (ms : Nat) : (t.wait ms).mcuHalted = t.mcuHalted := rfl
@[simp] theorem Target.wait_xdata (t : Target) (ms : Nat) : (t.wait ms).xdata = t.xdata := rfl
@[simp] theorem Target.wait_eeprom (t : Target) (ms : Nat) : (t.wait ms).eeprom = t.eeprom := rfl
@[simp] theorem Target.wait_dataOut (t : Target) (ms : Nat) : (t.wait ms).dataOut = t.dataOut := rfl
@[simp] theorem Target.wait_readSetup (t : Target) (ms : Nat) : (t.wait ms).readSetup = t.readSetup := rfl
@[simp] theorem Target.wait_owedRead (t : Target) (ms : Nat) : (t.wait ms).owedRead = t.owedRead - ms := rfl
@[simp] theorem Target.wait_lastWrite (t : Target) (ms : Nat) : (t.wait ms).lastWrite = t.lastWrite := rfl
@[simp] theorem Target.wait_owedWrite (t : Target) (ms : Nat) : (t.wait ms).owedWrite = t.owedWrite - ms := rfl
@[simp] theorem Target.wait_owedMem (t : Target) (ms : Nat) : (t.wait ms).owedMem = t.owedMem - ms := rfl
@[simp] theorem Target.wait_owedCmd (t : Target) (ms : Nat) : (t.wait ms).owedCmd = t.owedCmd - ms := rfl
@[simp] theorem Target.wait_draws (t : Target) (ms : Nat) : (t.wait ms).draws = t.draws := rfl
@[simp] theorem Target.setup_isp (t : Target) (l : Loc) (ms : Nat) : (t.setup l ms).isp = t.isp := rfl
@[simp] theorem Target.setup_ispPtr (t : Target) (l : Loc) (ms : Nat) : (t.setup l ms).ispPtr = t.ispPtr := rfl
@[simp] theorem Target.setup_debugMode (t : Target) (l : Loc) (ms : Nat) : (t.setup l ms).debugMode = t.debugMode := rfl
@[simp] theorem Target.setup_mcuHalted (t : Target) (l : Loc) (ms : Nat) : (t.setup l ms).mcuHalted = t.mcuHalted := rfl
@[simp] theorem Target.setup_xdata (t : Target) (l : Loc) (ms : Nat) : (t.setup l ms).xdata = t.xdata := rfl
@[simp] theorem Target.setup_eeprom (t : Target) (l : Loc) (ms : Nat) : (t.setup l ms).eeprom = t.eeprom := rfl
@[simp] theorem Target.setup_dataOut (t : Target) (l : Loc) (ms : Nat) : (t.setup l ms).dataOut = some (t.peek l) := rfl
@[simp] theorem Target.setup_readSetup (t : Target) (l : Loc) (ms : Nat) : (t.setup l ms).readSetup = some l := rfl
@[simp] theorem Target.setup_owedRead (t : Target) (l : Loc) (ms : Nat) : (t.setup l ms).owedRead = ms := rfl
@[simp] theorem Target.setup_lastWrite (t : Target) (l : Loc) (ms : Nat) : (t.setup l ms).lastWrite = t.lastWrite := rfl
@[simp] theorem Target.setup_owedWrite (t : Target) (l : Loc) (ms : Nat) : (t.setup l ms).owedWrite = t.owedWrite := rfl
@[simp] theorem Target.setup_owedMem (t : Target) (l : Loc) (ms : Nat) : (t.setup l ms).owedMem = ms := rfl
@[simp] theorem Target.setup_owedCmd (t : Target) (l : Loc) (ms : Nat) : (t.setup l ms).owedCmd = t.owedCmd := rfl
@[simp] theorem Target.setup_draws (t : Target) (l : Loc) (ms : Nat) : (t.setup l ms).draws = t.draws := rfl

@[simp] theorem State.slept_life (s : State) (ms : Nat) : (s.slept ms).life = s.life := rfl
@[simp] theorem State.slept_haltedFlag (s : State) (ms : Nat) : (s.slept ms).haltedFlag = s.haltedFlag := rfl
@[simp] theorem State.slept_debugAutoEnable (s : State) (ms : Nat) : (s.slept ms).debugAutoEnable = s.debugAutoEnable := rfl
@[simp] theorem State.slept_latches (s : State) (ms : Nat) : (s.slept ms).latches = s.latches := rfl
@[simp] theorem State.slept_phase (s : State) (ms : Nat) : (s.slept ms).phase = s.phase := rfl
@[simp] theorem State.slept_autoTaken (s : State) (ms : Nat) : (s.slept ms).autoTaken = s.autoTaken := rfl
@[simp] theorem State.slept_bracketOpen (s : State) (ms : Nat) : (s.slept ms).bracketOpen = s.bracketOpen := rfl
@[simp] theorem State.slept_result (s : State) (ms : Nat) : (s.slept ms).result = s.result := rfl
@[simp] theorem State.slept_pendingError (s : State) (ms : Nat) : (s.slept ms).pendingError = s.pendingError := rfl
@[simp] theorem State.slept_trace (s : State) (ms : Nat) : (s.slept ms).trace = s.trace ++ [.d ms] := rfl
@[simp] theorem State.slept_responses (s : State) (ms : Nat) : (s.slept ms).responses = s.responses := rfl
@[simp] theorem State.slept_target (s : State) (ms : Nat) : (s.slept ms).target = s.target.wait ms := rfl
@[simp] theorem State.slept_cfg (s : State) (ms : Nat) : (s.slept ms).cfg = s.cfg := rfl
@[simp] theorem State.slept_host (s : State) (ms : Nat) : (s.slept ms).host = s.host := rfl
@[simp] theorem State.slept_oracle (s : State) (ms : Nat) : (s.slept ms).oracle = s.oracle := rfl
@[simp] theorem State.slept_mcu (s : State) (ms : Nat) : (s.slept ms).mcu = s.mcu := rfl

@[simp] theorem Target.poke_ispPtr (t : Target) (l : Loc) (v : Byte) : (t.poke l v).ispPtr = t.ispPtr := by cases l <;> rfl
@[simp] theorem Target.poke_debugMode (t : Target) (l : Loc) (v : Byte) : (t.poke l v).debugMode = t.debugMode := by cases l <;> rfl
@[simp] theorem Target.poke_mcuHalted (t : Target) (l : Loc) (v : Byte) : (t.poke l v).mcuHalted = t.mcuHalted := by cases l <;> rfl
@[simp] theorem Target.poke_dataOut (t : Target) (l : Loc) (v : Byte) : (t.poke l v).dataOut = t.dataOut := by cases l <;> rfl
@[simp] theorem Target.poke_readSetup (t : Target) (l : Loc) (v : Byte) : (t.poke l v).readSetup = t.readSetup := by cases l <;> rfl
@[simp] theorem Target.poke_owedRead (t : Target) (l : Loc) (v : Byte) : (t.poke l v).owedRead = t.owedRead := by cases l <;> rfl
@[simp] theorem Target.poke_lastWrite (t : Target) (l : Loc) (v : Byte) : (t.poke l v).lastWrite = t.lastWrite := by cases l <;> rfl
@[simp] theorem Target.poke_owedWrite (t : Target) (l : Loc) (v : Byte) : (t.poke l v).owedWrite = t.owedWrite := by cases l <;> rfl
@[simp] theorem Target.poke_owedMem (t : Target) (l : Loc) (v : Byte) : (t.poke l v).owedMem = t.owedMem := by cases l <;> rfl
@[simp] theorem Target.poke_owedCmd (t : Target) (l : Loc) (v : Byte) : (t.poke l v).owedCmd = t.owedCmd := by cases l <;> rfl
@[simp] theorem Target.poke_draws (t : Target) (l : Loc) (v : Byte) : (t.poke l v).draws = t.draws := by cases l <;> rfl

@[simp] theorem Target.store_isp (t : Target) (l : Loc) (v : Byte) (ms : Nat) : (t.store l v ms).isp = (t.poke l v).isp := rfl
@[simp] theorem Target.store_ispPtr (t : Target) (l : Loc) (v : Byte) (ms : Nat) : (t.store l v ms).ispPtr = t.ispPtr := by cases l <;> rfl
@[simp] theorem Target.store_debugMode (t : Target) (l : Loc) (v : Byte) (ms : Nat) : (t.store l v ms).debugMode = t.debugMode := by cases l <;> rfl
@[simp] theorem Target.store_mcuHalted (t : Target) (l : Loc) (v : Byte) (ms : Nat) : (t.store l v ms).mcuHalted = t.mcuHalted := by cases l <;> rfl
@[simp] theorem Target.store_xdata (t : Target) (l : Loc) (v : Byte) (ms : Nat) : (t.store l v ms).xdata = (t.poke l v).xdata := rfl
@[simp] theorem Target.store_eeprom (t : Target) (l : Loc) (v : Byte) (ms : Nat) : (t.store l v ms).eeprom = (t.poke l v).eeprom := rfl
@[simp] theorem Target.store_dataOut (t : Target) (l : Loc) (v : Byte) (ms : Nat) : (t.store l v ms).dataOut = t.dataOut := by cases l <;> rfl
@[simp] theorem Target.store_readSetup (t : Target) (l : Loc) (v : Byte) (ms : Nat) : (t.store l v ms).readSetup = t.readSetup := by cases l <;> rfl
@[simp] theorem Target.store_owedRead (t : Target) (l : Loc) (v : Byte) (ms : Nat) : (t.store l v ms).owedRead = t.owedRead := by cases l <;> rfl
@[simp] theorem Target.store_lastWrite (t : Target) (l : Loc) (v : Byte) (ms : Nat) : (t.store l v ms).lastWrite = some l := rfl
@[simp] theorem Target.store_owedWrite (t : Target) (l : Loc) (v : Byte) (ms : Nat) : (t.store l v ms).owedWrite = ms := rfl
@[simp] theorem Target.store_owedMem (t : Target) (l : Loc) (v : Byte) (ms : Nat) : (t.store l v ms).owedMem = ms := rfl
@[simp] theorem Target.store_owedCmd (t : Target) (l : Loc) (v : Byte) (ms : Nat) : (t.store l v ms).owedCmd = t.owedCmd := by cases l <;> rfl
@[simp] theorem Target.store_draws (t : Target) (l : Loc) (v : Byte) (ms : Nat) : (t.store l v ms).draws = t.draws := by cases l <;> rfl

section reported
variable (g t : Target) (a : Answer)
@[simp] theorem Target.reported_ok (rs : List Byte) : g.reported t (.ok rs) = g := rfl
@[simp] theorem Target.reported_isp : (g.reported t a).isp = g.isp := by cases a <;> rfl
@[simp] theorem Target.reported_ispPtr : (g.reported t a).ispPtr = g.ispPtr := by cases a <;> rfl
@[simp] theorem Target.reported_debugMode : (g.reported t a).debugMode = g.debugMode := by cases a <;> rfl
@[simp] theorem Target.reported_mcuHalted : (g.reported t a).mcuHalted = g.mcuHalted := by cases a <;> rfl
@[simp] theorem Target.reported_xdata : (g.reported t a).xdata = g.xdata := by cases a <;> rfl
@[simp] theorem Target.reported_eeprom : (g.reported t a).eeprom = g.eeprom := by cases a <;> rfl
@[simp] theorem Target.reported_dataOut : (g.reported t a).dataOut = g.dataOut := by cases a <;> rfl
@[simp] theorem Target.reported_readSetup : (g.reported t a).readSetup = g.readSetup := by cases a <;> rfl
@[simp] theorem Target.reported_owedRead : (g.reported t a).owedRead = g.owedRead := by cases a <;> rfl
@[simp] theorem Target.reported_lastWrite : (g.reported t a).lastWrite = g.lastWrite := by cases a <;> rfl
@[simp] theorem Target.reported_owedWrite : (g.reported t a).owedWrite = g.owedWrite := by cases a <;> rfl
@[simp] theorem Target.reported_owedCmd : (g.reported t a).owedCmd = g.owedCmd := by cases a <;> rfl
@[simp] theorem Target.reported_draws : (g.reported t a).draws = g.draws := by cases a <;> rfl
@[simp] theorem Target.reported_peek (x : Loc) : (g.reported t a).peek x = g.peek x := by cases a <;> cases x <;> rfl
end reported

end Sys2Proof.Machine
end

