-- ==== Sys2Proof/Laws/Device.lean ====
section
/-! SUPPORT. What the reference device can do: it answers every listed frame, keeps its memories well formed, and answers each
frame of R76 as its rule says. -/

namespace Sys2Proof.Machine

/-! The MCU's turn. -/

theorem Target.mcuTurn_fields (t : Target) (ws : List (Addr16 × Byte)) : ∃ m, t.mcuTurn ws = { t with xdata := m } := by
  unfold Target.mcuTurn
  split
  · exact ⟨t.xdata, rfl⟩
  · exact Target.pokeXdata_fields ws t

theorem Target.mcuTurn_wf (t : Target) (ws : List (Addr16 × Byte)) (h : t.wf) : (t.mcuTurn ws).wf := by
  unfold Target.mcuTurn
  split
  · exact h
  · exact Target.pokeXdata_wf ws t h

/-- While halted the MCU writes nothing (R73). -/
@[simp] theorem Target.mcuTurn_halted (t : Target) (ws : List (Addr16 × Byte)) (h : t.mcuHalted = true) : t.mcuTurn ws = t := by
  simp [Target.mcuTurn, h]

@[simp] theorem Target.mcuTurn_nil (t : Target) : t.mcuTurn [] = t := by
  simp [Target.mcuTurn, Target.pokeXdata]

section fields
variable (t : Target) (ws : List (Addr16 × Byte))
@[simp] theorem Target.mcuTurn_isp : (t.mcuTurn ws).isp = t.isp := by obtain ⟨m, h⟩ := t.mcuTurn_fields ws; rw [h]
@[simp] theorem Target.mcuTurn_ispPtr : (t.mcuTurn ws).ispPtr = t.ispPtr := by obtain ⟨m, h⟩ := t.mcuTurn_fields ws; rw [h]
@[simp] theorem Target.mcuTurn_debugMode : (t.mcuTurn ws).debugMode = t.debugMode := by
  obtain ⟨m, h⟩ := t.mcuTurn_fields ws; rw [h]
@[simp] theorem Target.mcuTurn_mcuHalted : (t.mcuTurn ws).mcuHalted = t.mcuHalted := by
  obtain ⟨m, h⟩ := t.mcuTurn_fields ws; rw [h]
@[simp] theorem Target.mcuTurn_eeprom : (t.mcuTurn ws).eeprom = t.eeprom := by obtain ⟨m, h⟩ := t.mcuTurn_fields ws; rw [h]
@[simp] theorem Target.mcuTurn_dataOut : (t.mcuTurn ws).dataOut = t.dataOut := by obtain ⟨m, h⟩ := t.mcuTurn_fields ws; rw [h]
@[simp] theorem Target.mcuTurn_readSetup : (t.mcuTurn ws).readSetup = t.readSetup := by
  obtain ⟨m, h⟩ := t.mcuTurn_fields ws; rw [h]
@[simp] theorem Target.mcuTurn_owedRead : (t.mcuTurn ws).owedRead = t.owedRead := by obtain ⟨m, h⟩ := t.mcuTurn_fields ws; rw [h]
@[simp] theorem Target.mcuTurn_lastWrite : (t.mcuTurn ws).lastWrite = t.lastWrite := by
  obtain ⟨m, h⟩ := t.mcuTurn_fields ws; rw [h]
@[simp] theorem Target.mcuTurn_owedWrite : (t.mcuTurn ws).owedWrite = t.owedWrite := by
  obtain ⟨m, h⟩ := t.mcuTurn_fields ws; rw [h]
@[simp] theorem Target.mcuTurn_owedMem : (t.mcuTurn ws).owedMem = t.owedMem := by obtain ⟨m, h⟩ := t.mcuTurn_fields ws; rw [h]
@[simp] theorem Target.mcuTurn_owedCmd : (t.mcuTurn ws).owedCmd = t.owedCmd := by obtain ⟨m, h⟩ := t.mcuTurn_fields ws; rw [h]
@[simp] theorem Target.mcuTurn_draws : (t.mcuTurn ws).draws = t.draws := by obtain ⟨m, h⟩ := t.mcuTurn_fields ws; rw [h]
end fields

/-! A write that has not settled (R71). -/

/-- Where no write has its delay to wait for, a frame finds the target as it is. -/
@[simp] theorem Target.unsettle_settled (t : Target) (h : t.owedWrite = 0) : t.unsettle = t := by
  unfold Target.unsettle
  split <;> simp [h]

/-- A write that has not settled is the only thing a frame takes away (R71): its location holds any byte. -/
theorem Target.unsettle_cases (t : Target) : t.unsettle = t ∨
    ∃ l v, t.lastWrite = some l ∧ t.unsettle = { t.poke l v with owedWrite := 0, draws := t.draws + 1 } := by
  unfold Target.unsettle
  split
  · next l hl =>
    split
    · exact .inr ⟨l, _, hl, rfl⟩
    · exact .inl rfl
  · exact .inl rfl

section unsettle
variable (t : Target)
@[simp] theorem Target.unsettle_ispPtr : t.unsettle.ispPtr = t.ispPtr := by
  rcases t.unsettle_cases with h | ⟨l, v, -, h⟩ <;> rw [h]; simp
@[simp] theorem Target.unsettle_debugMode : t.unsettle.debugMode = t.debugMode := by
  rcases t.unsettle_cases with h | ⟨l, v, -, h⟩ <;> rw [h]; simp
@[simp] theorem Target.unsettle_mcuHalted : t.unsettle.mcuHalted = t.mcuHalted := by
  rcases t.unsettle_cases with h | ⟨l, v, -, h⟩ <;> rw [h]; simp
@[simp] theorem Target.unsettle_dataOut : t.unsettle.dataOut = t.dataOut := by
  rcases t.unsettle_cases with h | ⟨l, v, -, h⟩ <;> rw [h]; simp
@[simp] theorem Target.unsettle_readSetup : t.unsettle.readSetup = t.readSetup := by
  rcases t.unsettle_cases with h | ⟨l, v, -, h⟩ <;> rw [h]; simp
@[simp] theorem Target.unsettle_owedRead : t.unsettle.owedRead = t.owedRead := by
  rcases t.unsettle_cases with h | ⟨l, v, -, h⟩ <;> rw [h]; simp
@[simp] theorem Target.unsettle_owedMem : t.unsettle.owedMem = t.owedMem := by
  rcases t.unsettle_cases with h | ⟨l, v, -, h⟩ <;> rw [h]; simp
@[simp] theorem Target.unsettle_owedCmd : t.unsettle.owedCmd = t.owedCmd := by
  rcases t.unsettle_cases with h | ⟨l, v, -, h⟩ <;> rw [h]; simp
@[simp] theorem Target.unsettle_lastWrite : t.unsettle.lastWrite = t.lastWrite := by
  rcases t.unsettle_cases with h | ⟨l, v, -, h⟩ <;> rw [h]; simp
end unsettle

theorem Target.unsettle_wf (t : Target) (h : t.wf) : t.unsettle.wf := by
  rcases t.unsettle_cases with e | ⟨l, v, -, e⟩ <;> rw [e]
  · exact h
  · exact Target.poke_wf t l v h

/-- Where no write has to settle, the sub-device answers. -/
theorem Target.answer_settled (t : Target) (p : Params) (x : Txn) (h : t.owedWrite = 0) : t.answer p x = t.reply p x := by
  unfold Target.answer
  rw [t.unsettle_settled h]

/-! Well-formed memories are kept by every answer. -/

theorem Target.ispFrame_wf {t g : Target} {bs : List Byte} (h : t.wf) (e : t.ispFrame bs = some g) : g.wf := by
  unfold Target.ispFrame at e
  split at e
  · cases e; exact h
  · split at e
    · cases e; exact Target.redraw_wf t
    · cases e; exact Target.poke_wf _ _ _ h
  · cases e

theorem Target.dbgCommand_wf {t g : Target} {bs : List Byte} (h : t.wf) (e : t.dbgCommand bs = some g) : g.wf := by
  unfold Target.dbgCommand at e
  split at e
  · split at e
    · cases e; exact h
    · split at e
      · cases e; exact h
      · cases e
  · split at e
    · cases e; exact h
    · cases e
  · split at e
    · cases e; exact Target.poke_wf _ _ _ h
    · cases e
  · split at e
    · cases e; exact h
    · split at e
      · cases e; exact Target.poke_wf _ _ _ h
      · cases e
  · cases e

theorem Target.dbgData_wf {t : Target} (n : Nat) (h : t.wf) : (t.dbgData n).2.wf := by
  unfold Target.dbgData
  split
  · split
    · exact h
    · exact h
  · exact h
  · exact h

theorem Target.tooEarly_wf (t : Target) (cmd mem : Nat) : (t.tooEarly cmd mem).2.wf := Target.redraw_wf t

theorem Target.reported_wf {g : Target} (t : Target) (a : Answer) (h : g.wf) : (g.reported t a).wf := by cases a <;> exact h

theorem Target.reply_wf {t g : Target} {p : Params} {x : Txn} {a : Answer} (h : t.wf) (e : t.reply p x = some (a, g)) :
    g.wf := by
  unfold Target.reply at e
  split at e
  · obtain ⟨g', hg, he⟩ := Option.map_eq_some_iff.1 e
    cases he; exact Target.ispFrame_wf h hg
  · cases e
    unfold Target.ddcFrame
    split <;> exact h
  · unfold Target.dbgFrame at e
    split at e
    · cases e; exact Target.tooEarly_wf t _ _
    · split at e
      · cases e; exact h
      · split at e
        · cases e; exact h
        · obtain ⟨g', hg, he⟩ := Option.map_eq_some_iff.1 e
          cases he; exact Target.dbgCommand_wf h hg
  · unfold Target.ispRead at e
    simp only at e
    split at e
    · obtain ⟨g', hg, he⟩ := Option.map_eq_some_iff.1 e
      cases he; exact Target.ispFrame_wf h hg
    · obtain ⟨g', hg, he⟩ := Option.map_eq_some_iff.1 e
      cases he; exact Target.ispFrame_wf h hg
    · cases e; exact h
  · cases e; exact h
  · unfold Target.dbgRead at e
    split at e
    · cases e; exact Target.tooEarly_wf t _ _
    · split at e
      · cases e; exact h
      · split at e
        · next n _ _ _ =>
          have e' : (t.dbgData n).2 = g := congrArg Prod.snd (Option.some.inj e)
          exact e' ▸ Target.dbgData_wf n h
        · cases e

/-- Every answer of the reference device leaves its memories well formed. -/
theorem Target.answer_wf {t g : Target} {p : Params} {x : Txn} {a : Answer} (h : t.wf) (e : t.answer p x = some (a, g)) :
    g.wf := Target.reply_wf (t.unsettle_wf h) e

/-! The device has a meaning for every frame the engine emits (R72, R88). -/

theorem Target.dbgCommand_isSome {bs : List Byte} (t : Target) (p : Params) (h : Txn.listed p (.w .dbg bs) = true)
    (hd : bs ≠ p.disable.bytes) : (t.dbgCommand bs).isSome = true := by
  unfold Target.dbgCommand
  simp only [Txn.listed, Bool.or_eq_true, beq_iff_eq, hd, false_or] at h
  split <;> simp_all <;> grind

theorem Target.reply_isSome (t : Target) (p : Params) (x : Txn) (h : Txn.listed p x = true) :
    (t.reply p x).isSome = true := by
  match x, h with
  | .w .isp [a], _ => rfl
  | .w .isp [a, v], _ =>
    simp only [Target.reply, Target.ispFrame]
    split <;> rfl
  | .w .ddc bs, _ => rfl
  | .w .dbg bs, h =>
    simp only [Target.reply, Target.dbgFrame]
    split
    · rfl
    · split
      · rfl
      · split
        · rfl
        · next hd => simpa using Target.dbgCommand_isSome t p h hd
  | .wr .isp ws n, h =>
    simp only [Txn.listed, Bool.or_eq_true, Bool.and_eq_true, beq_iff_eq] at h
    rcases h with (⟨rfl, -⟩ | ⟨rfl, -⟩) | ⟨rfl, -⟩ <;> rfl
  | .wr .ddc ws n, _ => rfl
  | .wr .dbg ws n, h =>
    simp only [Txn.listed, Bool.or_eq_true, Bool.and_eq_true, beq_iff_eq] at h
    have hw : ws = dbgReadPrefix ∨ ws = dbgProbeWs := h.imp (·.1) (·.1)
    simp only [Target.reply, Target.dbgRead, if_pos hw]
    split
    · rfl
    · split <;> rfl

/-- The device has an answer to every listed frame. -/
theorem Target.answer_isSome (t : Target) (p : Params) (x : Txn) (h : Txn.listed p x = true) :
    (t.answer p x).isSome = true := Target.reply_isSome t.unsettle p x h

end Sys2Proof.Machine
end

