-- ==== Sys2Proof/Laws/Res.lean ====
section
/-! SUPPORT. The laws of `Res`: sequencing, and what holds of the state every operation ends in. -/

namespace Sys2Proof.Machine

section bind
variable {α β : Type} (k : α → State → Res β)
@[simp] theorem Res.bind_ok (a : α) (s : State) : (Res.ok a s).bind k = k a s := rfl
@[simp] theorem Res.bind_raised (e : Err) (s : State) : (Res.raised e s : Res α).bind k = .raised e s := rfl
@[simp] theorem Res.bind_raise (e : Err) (s : State) : (raise e s : Res α).bind k = .raised e s := rfl
@[simp] theorem Res.bind_hung (s : State) : (Res.hung s : Res α).bind k = .hung s := rfl
@[simp] theorem Res.bind_fault (f : Fault) : (Res.fault f : Res α).bind k = .fault f := rfl
@[simp] theorem Res.bind_refused (q : Refusal) : (Res.refused q : Res α).bind k = .refused q := rfl
end bind

/-- Sequencing is associative. -/
theorem Res.bind_assoc {α β γ : Type} (r : Res α) (k : α → State → Res β) (l : β → State → Res γ) :
    (r.bind k).bind l = r.bind fun a s => (k a s).bind l := by
  cases r <;> rfl

/-- The operation ends, in a state that meets `P`; the model's own stops do not occur. -/
def Res.Ends {α : Type} (P : State → Prop) : Res α → Prop
  | .ok _ s => P s
  | .raised _ s => P s
  | .hung s => P s
  | .fault _ => False
  | .refused _ => False

/-- Sequencing two operations that end: what the second does is added to what the first did. -/
theorem Res.Ends.bind {α β : Type} {P Q : State → Prop} {r : Res α} {k : α → State → Res β} (h : r.Ends P)
    (hk : ∀ a s, P s → (k a s).Ends Q) (hq : ∀ s, P s → Q s) : (r.bind k).Ends Q := by
  cases r with
  | ok a s => exact hk a s h
  | raised e s => exact hq s h
  | hung s => exact hq s h
  | fault f => exact h
  | refused q => exact h

theorem Res.Ends.mono {α : Type} {P Q : State → Prop} {r : Res α} (h : r.Ends P) (hq : ∀ s, P s → Q s) : r.Ends Q := by
  cases r with
  | ok a s => exact hq s h
  | raised e s => exact hq s h
  | hung s => exact hq s h
  | fault f => exact h
  | refused q => exact h

end Sys2Proof.Machine
end

