-- ==== Sys2Proof/Laws/Bus.lean ====
section
/-! SUPPORT. What one transaction can do, said once: it ends, with one event and one outcome. -/

namespace Sys2Proof.Machine

/-- What a transaction ends in: the bytes, the failure or the hang its event records. -/
theorem State.conclude_cases (s : State) (t : Txn) (a : Answer) (g : Target) :
    (∃ rs, a = .ok rs ∧ s.conclude t a g = .ok rs (s.record (eventOf t a) g)) ∨
    (∃ k, a = .err k ∧ s.conclude t a g = .raised (.transportError k) (s.record (eventOf t a) g)) ∨
    (a = .hang ∧ s.conclude t a g = .hung (s.record (eventOf t a) g).stuck) := by
  cases a with
  | ok rs => exact .inl ⟨rs, rfl, rfl⟩
  | err k => exact .inr (.inl ⟨k, rfl, rfl⟩)
  | hang => exact .inr (.inr ⟨rfl, rfl⟩)

/-- A transaction is the MCU's turn, then the bus's (R15). -/
theorem transact_eq (t : Txn) (s : State) : transact t s = transactAs (s.oracle.headD .device) t s.mcuActs.dropFate := rfl

/-- Everything a transaction of a listed frame can do (R12, R73, R164): the MCU takes its turn, then the target is as the
reference device leaves it, a failure that is reported leaving no delay required of the next frame (U12), or as it was; and the event
is appended with the outcome. -/
theorem transact_cases (t : Txn) (s : State) (h : Txn.listed s.cfg t = true) :
    ∃ a g, transact t s = s.mcuActs.dropFate.conclude t (outcomeOf t a) g ∧
      ((∃ b g' o, s.mcuActs.target.answer s.cfg t = some (b, g') ∧ g = g'.reported s.mcuActs.target o) ∨ g = s.mcuActs.target) := by
  have hs : ∃ b g, s.mcuActs.target.answer s.cfg t = some (b, g) := by
    obtain ⟨⟨b, g⟩, hb⟩ := Option.isSome_iff_exists.1 (Target.answer_isSome s.mcuActs.target s.cfg t h)
    exact ⟨b, g, hb⟩
  obtain ⟨b, g, hb⟩ := hs
  have hb' : s.mcuActs.dropFate.target.answer s.mcuActs.dropFate.cfg t = some (b, g) := hb
  rw [transact_eq]
  unfold transactAs
  split
  · exact ⟨_, _, rfl, .inr rfl⟩
  · rw [hb']; exact ⟨_, _, rfl, .inl ⟨b, g, _, hb, rfl⟩⟩
  · rw [hb']; exact ⟨_, _, rfl, .inl ⟨b, g, .ok [], hb, rfl⟩⟩

/-- A transaction of a listed frame ends, in a state with one more event. -/
theorem transact_ends (t : Txn) (s : State) (h : Txn.listed s.cfg t = true) {P : State → Prop}
    (hP : ∀ a g, ((∃ b g' o, s.mcuActs.target.answer s.cfg t = some (b, g') ∧ g = g'.reported s.mcuActs.target o) ∨
        g = s.mcuActs.target) →
      P (s.mcuActs.dropFate.record (eventOf t a) g) ∧ (a = .hang → P (s.mcuActs.dropFate.record (eventOf t a) g).stuck)) :
    (transact t s).Ends P := by
  obtain ⟨a, g, e, hg⟩ := transact_cases t s h
  rw [e]
  have hp := hP (outcomeOf t a) g hg
  rcases State.conclude_cases s.mcuActs.dropFate t (outcomeOf t a) g with ⟨rs, -, e⟩ | ⟨k, -, e⟩ | ⟨ha, e⟩
  · rw [e]; exact hp.1
  · rw [e]; exact hp.1
  · rw [e]; exact hp.2 ha

/-- The transport answers as the reference device and the MCU writes nothing. -/
theorem transact_quiet {t : Txn} {s : State} {a : Answer} {g : Target} (ho : s.oracle = []) (hm : s.mcu = [])
    (ha : s.target.answer s.cfg t = some (a, g)) : transact t s = s.conclude t (outcomeOf t a) g := by
  have e1 : s.mcuActs = s := by
    cases s; simp_all [State.mcuActs]
  have e2 : s.dropFate = s := by
    cases s; simp_all [State.dropFate]
  rw [transact_eq, ho, e1, e2]
  simp [transactAs, ha]

/-- A delay when the MCU writes nothing. -/
theorem sleep_quiet {s : State} (ms : Nat) (hm : s.mcu = []) : sleep ms s = s.record (.d ms) (s.target.wait ms) := by
  have e1 : s.mcuActs = s := by
    cases s; simp_all [State.mcuActs]
  unfold sleep
  rw [e1]
  rfl

/-- A transaction whose outcome the transport reports by itself, without an effect on the target (R12, R164). -/
theorem transact_override {t : Txn} {s : State} {a : Answer} {fs : List Fate} (ho : s.oracle = .override a false :: fs) :
    transact t s = s.mcuActs.dropFate.conclude t (outcomeOf t a) s.mcuActs.target := by
  rw [transact_eq, ho]
  rfl

/-! Every frame the engine assembles is listed (R88). -/

section listed
variable (p : Params)
@[simp] theorem listed_txIspPtr (a : Byte) : Txn.listed p (txIspPtr a) = true := rfl
@[simp] theorem listed_txIspData : Txn.listed p txIspData = true := rfl
@[simp] theorem listed_txIspWr (a v : Byte) : Txn.listed p (txIspWr a v) = true := rfl
@[simp] theorem listed_txIspCtrl (e : Bool) : Txn.listed p (txIspCtrl e) = true := rfl
@[simp] theorem listed_txIspReset : Txn.listed p txIspReset = true := rfl
@[simp] theorem listed_txIspQuery : Txn.listed p txIspQuery = true := rfl
@[simp] theorem listed_txCtorProbe : Txn.listed p txCtorProbe = true := rfl
@[simp] theorem listed_txHalt (h : Bool) : Txn.listed p (txHalt h) = true := by cases h <;> simp [txHalt, Txn.listed]
@[simp] theorem listed_txXdataRd (a : Addr16) : Txn.listed p (txXdataRd a) = true := by simp [txXdataRd, Txn.listed]
@[simp] theorem listed_txXdataWr (a : Addr16) (v : Byte) : Txn.listed p (txXdataWr a v) = true := by
  simp [txXdataWr, Txn.listed]
@[simp] theorem listed_txEeRd (a : Addr16) (t : Byte) : Txn.listed p (txEeRd a t) = true := by simp [txEeRd, Txn.listed]
@[simp] theorem listed_txEeWr (a : Addr16) (t v : Byte) : Txn.listed p (txEeWr a t v) = true := by simp [txEeWr, Txn.listed]
@[simp] theorem listed_txDbgData : Txn.listed p txDbgData = true := rfl
@[simp] theorem listed_txDbgProbe : Txn.listed p txDbgProbe = true := rfl
@[simp] theorem listed_txDbgEn : Txn.listed p (txDbgEn p) = true := by simp [txDbgEn, Txn.listed]
@[simp] theorem listed_txDbgDis : Txn.listed p (txDbgDis p) = true := by simp [txDbgDis, Txn.listed]
end listed

end Sys2Proof.Machine
end

