-- ==== Sys2Proof/Laws/Program.lean ====
section
/-! SUPPORT. What a program run to its end does: the laws of sequencing, and for every program of the engine one equation that says what
it does to the state, so that no later proof unfolds it. -/

namespace Sys2Proof.Machine

section run
variable {α β : Type}
@[simp] theorem Prog.run_ret (a : α) (s : State) : (Prog.ret a).run s = .ok a s := rfl
@[simp] theorem Prog.run_throw (e : Err) (s : State) : (Prog.throw e : Prog α).run s = raise e s := rfl
@[simp] theorem Prog.run_fault (f : Fault) (s : State) : (Prog.fault f : Prog α).run s = .fault f := rfl
@[simp] theorem Prog.run_sleep (ms : Nat) (r : Prog α) (s : State) : (Prog.sleep ms r).run s = r.run (Machine.sleep ms s) := rfl
@[simp] theorem Prog.run_get (r : State → Prog α) (s : State) : (Prog.get r).run s = (r s).run s := rfl
@[simp] theorem Prog.run_set (f : State → State) (r : Prog α) (s : State) : (Prog.set f r).run s = r.run (f s) := rfl

/-- A transaction, then what follows its outcome. -/
theorem Prog.run_bus (t : Txn) (r : Except Err (List Byte) → Prog α) (s : State) :
    (Prog.bus t r).run s = match transact t s with
      | .ok rs s => (r (.ok rs)).run s
      | .raised e s => (r (.error e)).run s
      | .hung s => .hung s
      | .fault f => .fault f
      | .refused q => .refused q := by
  cases h : transact t s <;> simp only [Prog.run, h]

/-- Running two programs one after the other. -/
@[simp] theorem Prog.run_bind (p : Prog α) (k : α → Prog β) (s : State) :
    (p.bind k).run s = (p.run s).bind fun a s => (k a).run s := by
  induction p generalizing s with
  | ret a => rfl
  | throw e => rfl
  | fault f => rfl
  | bus t r ih =>
    simp only [Prog.bind, Prog.run_bus]
    cases transact t s <;> simp [ih]
  | sleep ms r ih => exact ih _
  | get r ih => exact ih _ _
  | set f r ih => exact ih _

/-- An error caught. -/
def Res.attempt : Res α → Res (Except Err α)
  | .ok a s => .ok (.ok a) s
  | .raised e s => .ok (.error e) s
  | .hung s => .hung s
  | .fault f => .fault f
  | .refused q => .refused q

@[simp] theorem Prog.run_attempt (p : Prog α) (s : State) : p.attempt.run s = (p.run s).attempt := by
  induction p generalizing s with
  | ret a => rfl
  | throw e => rfl
  | fault f => rfl
  | bus t r ih =>
    simp only [Prog.attempt, Prog.run_bus]
    cases transact t s <;> simp [ih, Res.attempt]
  | sleep ms r ih => exact ih _
  | get r ih => exact ih _ _
  | set f r ih => exact ih _

@[simp] theorem bus_run (t : Txn) (s : State) : (bus t).run s = transact t s := by
  unfold bus
  rw [Prog.run_bus]
  cases transact t s <;> rfl

@[simp] theorem delay_run (ms : Nat) (s : State) : (delay ms).run s = .ok () (sleep ms s) := rfl

@[simp] theorem assign_run (f : State → State) (s : State) : (assign f).run s = .ok () (f s) := rfl

theorem Prog.run_ite (c : Prop) [Decidable c] (p q : Prog α) (s : State) :
    (if c then p else q).run s = if c then p.run s else q.run s := by split <;> rfl
end run

/-! The mode gate (41_mode_gate.md). -/

theorem queryIspEnabled_run (s : State) :
    queryIspEnabled.run s = (transact txIspQuery s).bind fun rs s => .ok ((rs.headD 0).getLsbD 7) s := by
  simp [queryIspEnabled]

theorem setIspEnabled_run (on force : Bool) (s : State) : (setIspEnabled on force).run s =
    if force then (transact (txIspCtrl on) s).bind fun _ s => .ok () s
    else (queryIspEnabled.run s).bind fun b s =>
      if b = on then .ok () s else (transact (txIspCtrl on) s).bind fun _ s => .ok () s := by
  unfold setIspEnabled
  simp only [Prog.run_ite, Prog.run_bind, bus_run, Prog.run_ret]

theorem queryDebugEnabled_run (s : State) : queryDebugEnabled.run s =
    match transact txDbgProbe s with
    | .raised (.transportError .unreachable) s => .ok false s
    | r => r.bind fun _ s => .ok true s := by
  unfold queryDebugEnabled
  rw [Prog.run_bus]
  cases h : transact txDbgProbe s with
  | raised e s =>
    cases e with
    | transportError k => cases k <;> rfl
    | _ => rfl
  | _ => rfl

/-- The write of `setDebugEnabled`, after its no-op test (R117). -/
def debugWrite (on : Bool) (s : State) : Res Unit :=
  if !on && s.haltedFlag then raise (.invalidState .disableWhileHalted) s
  else (transact (txDebug on s.cfg) (sleep tMode s)).bind fun _ s => .ok () (sleep tMode s)

theorem setDebugEnabled_run (on force : Bool) (s : State) : (setDebugEnabled on force).run s =
    if force then debugWrite on s
    else (queryDebugEnabled.run s).bind fun b s => if b = on then .ok () s else debugWrite on s := by
  unfold setDebugEnabled debugWrite
  simp only [Prog.run_ite, Prog.run_bind, Prog.run_get, Prog.run_throw, bus_run, delay_run, Prog.run_ret, Res.bind_ok]

theorem debugGuardEnter_run (s : State) : debugGuardEnter.run s =
    if s.latchAuto.autoTaken then (setDebugEnabled true false).run (s.latchAuto.move false 0 true)
    else (queryDebugEnabled.run s.latchAuto).bind fun b s => if b then .ok () s else raise (.preconditionFailed .debug) s := by
  unfold debugGuardEnter
  simp only [Prog.run_bind, assign_run, Res.bind_ok, Prog.run_get, Prog.run_ite, Prog.run_ret, Prog.run_throw]

theorem debugGuardExit_run (s : State) : debugGuardExit.run s =
    if s.autoTaken then (setDebugEnabled false false).run s else .ok () s := by
  unfold debugGuardExit
  simp only [Prog.run_get, Prog.run_ite, Prog.run_ret]

theorem ispGuard_run (s : State) : ispGuard.run s =
    (queryIspEnabled.run s).bind fun b s => if b then .ok () s else raise (.preconditionFailed .isp) s := by
  unfold ispGuard
  simp only [Prog.run_bind, Prog.run_ite, Prog.run_ret, Prog.run_throw]

/-! The transfers (R138 to R152). -/

/-- What the extra settle delay does to the state (R147, R153). -/
def settled (halt : Bool) (s : State) : State := if halt then s else sleep tSettle s

@[simp] theorem settleUnlessHalt_run (halt : Bool) (s : State) : (settleUnlessHalt halt).run s = .ok () (settled halt s) := by
  cases halt <;> rfl

theorem readIsp_run (a : Int) (s : State) : (readIsp a).run s =
    (transact (txIspPtr (isp8 a)) s).bind fun _ s => (transact txIspData s).bind fun rs s => .ok (rs.headD 0) s := by
  simp [readIsp]

theorem writeIsp_run (a : Int) (v : Byte) (s : State) : (writeIsp a v).run s =
    (transact (txIspWr (isp8 a) v) s).bind fun _ s => .ok () s := by
  simp [writeIsp]

theorem readXdata_run (a : Int) (halt : Bool) (s : State) : (readXdata a halt).run s =
    (transact (txXdataRd (addr16 a)) s).bind fun _ s =>
      (transact txDbgData (settled halt s)).bind fun rs s => .ok (rs.headD 0) s := by
  simp [readXdata]

theorem writeXdata_run (a : Int) (v : Byte) (halt : Bool) (s : State) : (writeXdata a v halt).run s =
    (transact (txXdataWr (addr16 a) v) s).bind fun _ s => .ok () (settled halt s) := by
  simp [writeXdata]

theorem readEeprom_run (a : Int) (t : Byte) (halt : Bool) (s : State) : (readEeprom a t halt).run s =
    (transact (txEeRd (addr16 a) t) s).bind fun _ s =>
      (transact txDbgData (settled halt (sleep tEeprom s))).bind fun rs s => .ok (rs.headD 0) s := by
  simp [readEeprom]

theorem writeEeprom_run (a : Int) (t v : Byte) (halt : Bool) (s : State) : (writeEeprom a t v halt).run s =
    (transact (txEeWr (addr16 a) t v) s).bind fun _ s => .ok () (settled halt (sleep tEeprom s)) := by
  simp [writeEeprom]

/-! The range operation (R125) and `haltMcu` (R131). -/

theorem haltCtl_run (on : Bool) (s : State) : (haltCtl on).run s =
    (transact (txHalt on) s).bind fun _ s => .ok () (sleep tHalt (s.setHalted on)) := by
  simp [haltCtl]

@[simp] theorem Plan.advance_run (p : Plan) (s : State) : p.advance.run s = .ok () (p.move true s) := rfl

theorem Plan.check_run (p : Plan) (s : State) : p.check.run s =
    if p.write && p.payload.isNone then raise .invalidPayload s
    else match validate p.space p.start p.length with
      | some e => raise e s
      | none => .ok () s := by
  unfold Plan.check
  rw [Prog.run_ite]
  cases validate p.space p.start p.length <;> rfl

theorem Plan.haltOpen_run (p : Plan) (s : State) : p.haltOpen.run s =
    if p.bracket then ((haltCtl true).run s).bind fun _ s => .ok () (p.move true s.markOpen) else .ok () s := by
  unfold Plan.haltOpen
  simp only [Prog.run_ite, Prog.run_bind, assign_run, Res.bind_ok, Plan.advance_run, Prog.run_ret]

theorem Plan.transfer_run (p : Plan) (i : Nat) (s : State) : (p.transfer i).run s =
    if p.write then (writeXfer p (p.addr i) (p.value i)).run s
    else ((readXfer p (p.addr i)).run s).bind fun b s => .ok () (s.push b) := by
  unfold Plan.transfer
  simp only [Prog.run_ite, Prog.run_bind, assign_run]

@[simp] theorem Plan.transfers_zero_run (p : Plan) (i : Nat) (s : State) : (p.transfers 0 i).run s = .ok () s := rfl

theorem Plan.transfers_succ_run (p : Plan) (k i : Nat) (s : State) : (p.transfers (k + 1) i).run s =
    ((p.transfer i).run s).bind fun _ s => (p.transfers k (i + 1)).run (p.move true s) := by
  simp [Plan.transfers]

theorem Plan.haltClose_run (p : Plan) (s : State) : p.haltClose.run s =
    ((haltCtl false).run s.markClosed).bind fun _ s =>
      match s.pendingError with
      | some e => raise e (p.move true s)
      | none => .ok () (p.move true s) := by
  unfold Plan.haltClose
  simp only [Prog.run_bind, assign_run, Res.bind_ok, Plan.advance_run, Prog.run_get]
  congr 1
  funext _ s
  show (match s.pendingError with | some e => Prog.throw e | none => Prog.ret ()).run _ = _
  cases s.pendingError <;> rfl

/-- What the `finally` does with the end of the transfers (R129). -/
def Plan.closed (p : Plan) : Res Unit → Res Unit
  | .ok _ s => if s.bracketOpen then p.haltClose.run s else .ok () s
  | .raised e s => if s.bracketOpen then p.haltClose.run (p.move false (s.pend e)) else raise e (p.move false s)
  | r => r

theorem Plan.close_run (p : Plan) (body : Prog Unit) (s : State) : (p.close body).run s = p.closed (body.run s) := by
  unfold Plan.close
  rw [Prog.run_bind, Prog.run_attempt]
  cases body.run s <;> simp [Res.attempt, Plan.closed, Prog.run_ite]

theorem Plan.program_run (p : Plan) (s : State) : p.program.run s =
    (p.gate.run (p.move true s)).bind fun _ s =>
      (p.check.run (p.move true s)).bind fun _ s =>
      (p.haltOpen.run (p.move true s)).bind fun _ s =>
      (p.closed ((p.transfers p.count 0).run s)).bind fun _ s =>
      (p.exit.run s).bind fun _ s => .ok (if p.write then .void else .bytes s.result) s := by
  unfold Plan.program
  simp only [Prog.run_bind, Plan.advance_run, Res.bind_ok, Plan.close_run, Prog.run_get, Prog.run_ret]

theorem haltMcu_run (on : Bool) (s : State) : (haltMcu on).run s =
    (debugGuardEnter.run (s.place .modeCheck)).bind fun _ s =>
      ((haltCtl on).run (s.place (if on then .haltOpen else .haltClose))).bind fun _ s =>
      (debugGuardExit.run (s.place (if s.autoTaken then .autoDisable else .respond))).bind fun _ s => .ok .void s := by
  unfold haltMcu atPhase
  simp only [Prog.run_bind, assign_run, Res.bind_ok, Prog.run_ret]

theorem ispReset_run (s : State) : ispReset.run s =
    ((setIspEnabled true true).run s).bind fun _ s => (transact txIspReset s).bind fun _ s => .ok .void s := by
  simp [ispReset]

/-- An operation on the latches of an accepted request. -/
theorem withLatches_run (k : Latches → Prog Result) {s : State} {q : Latches} (h : s.latches = some q) :
    (withLatches k).run s = (k q).run s := by
  simp [withLatches, h]

/-- Construction (R186). -/
theorem construction_run (s : State) : construction.run s =
    match transact txCtorProbe s with
    | .ok _ s => .ok .void s
    | .raised (.transportError .unreachable) s => .raised .deviceUnreachable s
    | .raised e s => .raised e s
    | .hung s => .hung s
    | .fault f => .fault f
    | .refused q => .refused q := by
  unfold construction
  rw [Prog.run_bus]
  cases transact txCtorProbe s with
  | raised e s =>
    cases e with
    | transportError k => cases k <;> rfl
    | _ => rfl
  | _ => rfl

end Sys2Proof.Machine
end

