-- ==== Sys2Proof/Laws/Engine.lean ====
section
/-! SUPPORT. One induction over the engine, packaged once: a relation between states that every primitive keeps is kept by every
host request. An invariant, a frame or a shape of the trace is then a small goal per primitive. -/

namespace Sys2Proof.Machine

/-- The frames the engine emits besides halt control and the disable sequence, which their callers guard. -/
inductive PlainFrame (p : Params) : Txn → Prop where
  | ispPtr (a : Byte) : PlainFrame p (txIspPtr a)
  | ispData : PlainFrame p txIspData
  | ispWr (a v : Byte) : PlainFrame p (txIspWr a v)
  | ispCtrl (e : Bool) : PlainFrame p (txIspCtrl e)
  | ispReset : PlainFrame p txIspReset
  | ispQuery : PlainFrame p txIspQuery
  | xdataRd (a : Addr16) : PlainFrame p (txXdataRd a)
  | xdataWr (a : Addr16) (v : Byte) : PlainFrame p (txXdataWr a v)
  | eeRd (a : Addr16) (t : Byte) : PlainFrame p (txEeRd a t)
  | eeWr (a : Addr16) (t v : Byte) : PlainFrame p (txEeWr a t v)
  | dbgData : PlainFrame p txDbgData
  | dbgProbe : PlainFrame p txDbgProbe
  | dbgEn : PlainFrame p (txDbgEn p)

theorem PlainFrame.listed {p : Params} {t : Txn} (h : PlainFrame p t) : Txn.listed p t = true := by
  cases h <;> simp

/-- The two states differ in the sequencer position and the per-request latches only. -/
structure SameCore (s s' : State) : Prop where
  life : s'.life = s.life
  haltedFlag : s'.haltedFlag = s.haltedFlag
  debugAutoEnable : s'.debugAutoEnable = s.debugAutoEnable
  latches : s'.latches = s.latches
  trace : s'.trace = s.trace
  responses : s'.responses = s.responses
  target : s'.target = s.target
  cfg : s'.cfg = s.cfg
  host : s'.host = s.host
  oracle : s'.oracle = s.oracle
  mcu : s'.mcu = s.mcu

/-- A relation between states that every primitive of the engine keeps. -/
structure Closed (R : State → State → Prop) : Prop where
  refl : ∀ s, R s s
  trans : ∀ {a b c}, R a b → R b c → R a c
  keep : ∀ {s s'}, SameCore s s' → R s s'
  plain : ∀ t s, PlainFrame s.cfg t → (transact t s).Ends (R s)
  halt : ∀ on s, ((haltCtl on).run s).Ends (R s)
  disable : ∀ s, s.haltedFlag = false → (transact (txDbgDis s.cfg) s).Ends (R s)
  sleep : ∀ ms s, R s (sleep ms s)

namespace Closed

variable {R : State → State → Prop} (C : Closed R)
include C

omit C in
theorem ok {α : Type} (a : α) {s s' : State} (h : R s s') : (Res.ok a s').Ends (R s) := h

omit C in
theorem raise {α : Type} (e : Err) {s s' : State} (h : R s s') : (Machine.raise e s' : Res α).Ends (R s) := h

theorem bind {α β : Type} {s : State} {r : Res α} {k : α → State → Res β} (h : r.Ends (R s))
    (hk : ∀ a s', R s s' → (k a s').Ends (R s')) : (r.bind k).Ends (R s) :=
  h.bind (fun a s' hs => (hk a s' hs).mono fun _ h2 => C.trans hs h2) (fun _ h => h)

theorem from_keep {α : Type} {s s' : State} {r : Res α} (hs : SameCore s s') (h : r.Ends (R s')) : r.Ends (R s) :=
  h.mono fun _ h2 => C.trans (C.keep hs) h2

theorem move (p : Plan) (b : Bool) (s : State) : R s (p.move b s) := C.keep (by constructor <;> rfl)

theorem queryIspEnabled (s : State) : (queryIspEnabled.run s).Ends (R s) := by
  rw [queryIspEnabled_run]
  exact C.bind (C.plain _ s .ispQuery) fun _ _ _ => C.refl _

theorem setIspEnabled (on force : Bool) (s : State) : ((setIspEnabled on force).run s).Ends (R s) := by
  have w : ∀ s, ((transact (txIspCtrl on) s).bind fun _ s => Res.ok () s).Ends (R s) := fun s =>
    C.bind (C.plain _ s (.ispCtrl on)) fun _ _ _ => C.refl _
  rw [setIspEnabled_run]
  split
  · exact w s
  · exact C.bind (C.queryIspEnabled s) fun b s' _ => by
      split
      · exact C.refl s'
      · exact w s'

theorem queryDebugEnabled (s : State) : (queryDebugEnabled.run s).Ends (R s) := by
  have h := C.plain txDbgProbe s .dbgProbe
  rw [queryDebugEnabled_run]
  split
  · next s' e => rw [e] at h; exact h
  · exact C.bind h fun _ _ _ => C.refl _

theorem debugWrite (on : Bool) (s : State) : (debugWrite on s).Ends (R s) := by
  unfold Machine.debugWrite
  split
  · exact Closed.raise _ (C.refl s)
  · next hg =>
    have h : (transact (txDebug on s.cfg) (Machine.sleep tMode s)).Ends (R (Machine.sleep tMode s)) := by
      cases on with
      | true => exact C.plain _ (Machine.sleep tMode s) .dbgEn
      | false => exact C.disable (Machine.sleep tMode s) (by simpa using hg)
    exact (C.bind h fun _ s' _ => Closed.ok () (C.sleep _ s')).mono fun _ h2 => C.trans (C.sleep _ s) h2

theorem setDebugEnabled (on force : Bool) (s : State) : ((setDebugEnabled on force).run s).Ends (R s) := by
  rw [setDebugEnabled_run]
  split
  · exact C.debugWrite on s
  · exact C.bind (C.queryDebugEnabled s) fun b s' _ => by
      split
      · exact C.refl s'
      · exact C.debugWrite on s'

theorem debugGuardEnter (s : State) : (debugGuardEnter.run s).Ends (R s) := by
  refine C.from_keep (s' := s.latchAuto) (by constructor <;> rfl) ?_
  rw [debugGuardEnter_run]
  split
  · exact C.from_keep (by constructor <;> rfl) (C.setDebugEnabled true false (s.latchAuto.move false 0 true))
  · exact C.bind (C.queryDebugEnabled _) fun b s' _ => by
      split
      · exact C.refl _
      · exact Closed.raise _ (C.refl _)

theorem debugGuardExit (s : State) : (debugGuardExit.run s).Ends (R s) := by
  rw [debugGuardExit_run]
  split
  · exact C.setDebugEnabled _ _ s
  · exact C.refl s

theorem ispGuard (s : State) : (ispGuard.run s).Ends (R s) := by
  rw [ispGuard_run]
  exact C.bind (C.queryIspEnabled s) fun b s' _ => by
    split
    · exact C.refl _
    · exact Closed.raise _ (C.refl _)

theorem settled (halt : Bool) (s : State) : R s (settled halt s) := by
  unfold Machine.settled
  split
  · exact C.refl s
  · exact C.sleep _ s

theorem readData (s s' : State) (h : R s s') : ((transact txDbgData s').bind fun rs s => Res.ok (rs.headD 0) s).Ends (R s) :=
  (C.bind (C.plain _ s' .dbgData) fun _ s2 _ => Closed.ok _ (C.refl s2)).mono fun _ h2 => C.trans h h2

theorem readXfer (p : Plan) (a : Int) (s : State) : ((readXfer p a).run s).Ends (R s) := by
  unfold Machine.readXfer
  split
  · rw [readIsp_run]
    exact C.bind (C.plain _ s (.ispPtr _)) fun _ s' _ => C.bind (C.plain _ s' .ispData) fun _ s2 _ => Closed.ok _ (C.refl s2)
  · rw [readXdata_run]
    exact C.bind (C.plain _ s (.xdataRd _)) fun _ s' _ => C.readData _ _ (C.settled _ s')
  · rw [readEeprom_run]
    exact C.bind (C.plain _ s (.eeRd _ _)) fun _ s' _ => C.readData _ _ (C.trans (C.sleep _ s') (C.settled _ _))

theorem writeXfer (p : Plan) (a : Int) (v : Byte) (s : State) : ((writeXfer p a v).run s).Ends (R s) := by
  unfold Machine.writeXfer
  split
  · rw [writeIsp_run]
    exact C.bind (C.plain _ s (.ispWr _ _)) fun _ s2 _ => Closed.ok _ (C.refl s2)
  · rw [writeXdata_run]
    exact C.bind (C.plain _ s (.xdataWr _ _)) fun _ s' _ => C.settled _ s'
  · rw [writeEeprom_run]
    exact C.bind (C.plain _ s (.eeWr _ _ _)) fun _ s' _ => C.trans (C.sleep _ s') (C.settled _ _)

theorem gate (p : Plan) (s : State) : (p.gate.run s).Ends (R s) := by
  unfold Plan.gate
  split
  · exact C.ispGuard s
  · exact C.debugGuardEnter s
  · exact C.debugGuardEnter s

theorem check (p : Plan) (s : State) : (p.check.run s).Ends (R s) := by
  rw [Plan.check_run]
  split
  · exact Closed.raise _ (C.refl s)
  · split
    · exact Closed.raise _ (C.refl s)
    · exact C.refl s

theorem haltOpen (p : Plan) (s : State) : (p.haltOpen.run s).Ends (R s) := by
  rw [Plan.haltOpen_run]
  split
  · exact C.bind (C.halt true s) fun _ s' _ => C.keep (by constructor <;> rfl)
  · exact C.refl s

theorem transfer (p : Plan) (i : Nat) (s : State) : ((p.transfer i).run s).Ends (R s) := by
  rw [Plan.transfer_run]
  split
  · exact C.writeXfer p _ _ s
  · exact C.bind (C.readXfer p _ s) fun _ s' _ => C.keep (by constructor <;> rfl)

theorem transfers (p : Plan) (k i : Nat) (s : State) : ((p.transfers k i).run s).Ends (R s) := by
  induction k generalizing i s with
  | zero => exact C.refl s
  | succ k ih =>
    rw [Plan.transfers_succ_run]
    exact C.bind (C.transfer p i s) fun _ s' _ => C.from_keep (by constructor <;> rfl) (ih _ _)

theorem haltClose (p : Plan) (s : State) : (p.haltClose.run s).Ends (R s) := by
  rw [Plan.haltClose_run]
  refine C.from_keep (s' := s.markClosed) (by constructor <;> rfl) (C.bind (C.halt false _) fun _ s' _ => ?_)
  split
  · exact Closed.raise _ (C.move p true s')
  · exact C.move p true s'

theorem closed (p : Plan) {s : State} {r : Res Unit} (h : r.Ends (R s)) : (p.closed r).Ends (R s) := by
  cases r with
  | ok a s' =>
    simp only [Plan.closed]
    split
    · exact (C.haltClose p s').mono fun _ h2 => C.trans h h2
    · exact h
  | raised e s' =>
    simp only [Plan.closed]
    split
    · refine Res.Ends.mono (C.from_keep (s := s') ?_ (C.haltClose p _)) fun _ h2 => C.trans h h2
      constructor <;> rfl
    · exact C.trans h (C.move p false s')
  | hung s' => exact h
  | fault f => exact h
  | refused q => exact h

theorem exit (p : Plan) (s : State) : (p.exit.run s).Ends (R s) := by
  unfold Plan.exit
  split
  · exact C.refl s
  · exact C.debugGuardExit s
  · exact C.debugGuardExit s

/-- Every range operation keeps the relation. -/
theorem program (p : Plan) (s : State) : (p.program.run s).Ends (R s) := by
  rw [Plan.program_run]
  refine C.from_keep (s' := p.move true s) (by constructor <;> rfl) (C.bind (C.gate p _) fun _ s1 _ => ?_)
  refine C.from_keep (s' := p.move true s1) (by constructor <;> rfl) (C.bind (C.check p _) fun _ s2 _ => ?_)
  refine C.from_keep (s' := p.move true s2) (by constructor <;> rfl) (C.bind (C.haltOpen p _) fun _ s3 _ => ?_)
  refine C.bind (C.closed p (C.transfers p _ _ s3)) fun _ s4 _ => ?_
  exact C.bind (C.exit p s4) fun _ s5 _ => C.refl s5

theorem haltMcu (on : Bool) (s : State) : ((haltMcu on).run s).Ends (R s) := by
  rw [haltMcu_run]
  refine C.from_keep (s' := s.place .modeCheck) (by constructor <;> rfl) (C.bind (C.debugGuardEnter _) fun _ s1 _ => ?_)
  refine C.from_keep (s' := s1.place (if on then .haltOpen else .haltClose)) (by constructor <;> rfl)
    (C.bind (C.halt on _) fun _ s2 _ => ?_)
  refine C.from_keep (s' := s2.place (if s2.autoTaken then .autoDisable else .respond)) (by constructor <;> rfl)
    (C.bind (C.debugGuardExit _) fun _ s3 _ => C.refl s3)

theorem ispReset (s : State) : (ispReset.run s).Ends (R s) := by
  rw [ispReset_run]
  exact C.bind (C.setIspEnabled true true s) fun _ s1 _ => C.bind (C.plain _ s1 .ispReset) fun _ _ _ => C.refl _

end Closed

/-! Every host request is served by its program. -/

/-- A host request is refused unless the block is Ready, else accepted, run and answered (R25, R162). -/
theorem exec_request {i : Instr} {q : Latches} (h : latchesOf i = some q) (s : State) :
    exec i s = if s.life = .ready then ((programOf q.op).run (s.accept q)).finish else .refused (.notReady s.life) := by
  cases i <;> cases h <;> rfl

/-- What a request runs once it is accepted: the operation of its plan, or its mode operation with its operands. -/
theorem program_cases {i : Instr} {q : Latches} (h : latchesOf i = some q) :
    (∃ p, q.plan = some p ∧ ∀ s : State, s.latches = some q → (programOf q.op).run s = p.program.run s) ∨
    (i = .ispEnabled ∧ ∀ s : State, s.latches = some q → (programOf q.op).run s =
      (queryIspEnabled.run s).bind fun b s => .ok (.flag b) s) ∨
    (i = .ispSetEnabled q.on q.force ∧ ∀ s : State, s.latches = some q → (programOf q.op).run s =
      ((setIspEnabled q.on q.force).run s).bind fun _ s => .ok .void s) ∨
    (i = .dbgEnabled ∧ ∀ s : State, s.latches = some q → (programOf q.op).run s =
      (queryDebugEnabled.run s).bind fun b s => .ok (.flag b) s) ∨
    (i = .dbgSetEnabled q.on q.force ∧ ∀ s : State, s.latches = some q → (programOf q.op).run s =
      ((setDebugEnabled q.on q.force).run s).bind fun _ s => .ok .void s) ∨
    (i = .dbgSetAuto q.on ∧ ∀ s : State, s.latches = some q → (programOf q.op).run s = .ok .void (s.setAuto q.on)) ∨
    (i = .ispReset ∧ ∀ s : State, s.latches = some q → (programOf q.op).run s = ispReset.run s) ∨
    (i = .dbgHalt q.on ∧ ∀ s : State, s.latches = some q → (programOf q.op).run s = (haltMcu q.on).run s) := by
  cases i <;> cases h
  case ispEnabled => exact .inr (.inl ⟨rfl, fun _ _ => Prog.run_bind _ _ _⟩)
  case ispSetEnabled => exact .inr (.inr (.inl ⟨rfl, fun _ h => (withLatches_run _ h).trans (Prog.run_bind _ _ _)⟩))
  case dbgEnabled => exact .inr (.inr (.inr (.inl ⟨rfl, fun _ _ => Prog.run_bind _ _ _⟩)))
  case dbgSetEnabled =>
    exact .inr (.inr (.inr (.inr (.inl ⟨rfl, fun _ h => (withLatches_run _ h).trans (Prog.run_bind _ _ _)⟩))))
  case dbgSetAuto => exact .inr (.inr (.inr (.inr (.inr (.inl ⟨rfl, fun _ h => withLatches_run _ h⟩)))))
  case ispReset => exact .inr (.inr (.inr (.inr (.inr (.inr (.inl ⟨rfl, fun _ _ => rfl⟩))))))
  case dbgHalt => exact .inr (.inr (.inr (.inr (.inr (.inr (.inr ⟨rfl, fun _ h => withLatches_run _ h⟩))))))
  all_goals exact .inl ⟨_, rfl, fun _ h => withLatches_run _ h⟩

/-- A relation every primitive keeps, and setting the policy flag keeps, is kept by the program of every request. -/
theorem Closed.request {R : State → State → Prop} (C : Closed R) {i : Instr} {q : Latches}
    (h : latchesOf i = some q) (hauto : ∀ on, i = .dbgSetAuto on → ∀ s : State, R s (s.setAuto on)) (s : State) :
    ((programOf q.op).run (s.accept q)).Ends (R (s.accept q)) := by
  rcases program_cases h with ⟨p, -, e⟩ | ⟨-, e⟩ | ⟨-, e⟩ | ⟨-, e⟩ | ⟨-, e⟩ | ⟨hi, e⟩ | ⟨-, e⟩ | ⟨-, e⟩ <;> rw [e _ rfl]
  · exact C.program p _
  · exact C.bind (C.queryIspEnabled _) fun _ s' _ => C.refl s'
  · exact C.bind (C.setIspEnabled _ _ _) fun _ s' _ => C.refl s'
  · exact C.bind (C.queryDebugEnabled _) fun _ s' _ => C.refl s'
  · exact C.bind (C.setDebugEnabled _ _ _) fun _ s' _ => C.refl s'
  · exact hauto _ hi _
  · exact C.ispReset _
  · exact C.haltMcu _ _

end Sys2Proof.Machine
end

