-- ==== Sys2Proof/Laws/Agents.lean ====
section
/-! SUPPORT. Every step of the machine is a run of its four agents, each taking steps of its own (R15): the whole request of one step is
the host's step, then for each primitive a turn of the MCU and the steps of the engine and the bus. -/

namespace Sys2Proof.Machine

/-- One run after another. -/
theorem System.play_append (as bs : List Agent) (c c' : System) (h : c.play as = .next c') :
    c.play (as ++ bs) = c'.play bs := by
  induction as generalizing c with
  | nil => cases h; rfl
  | cons a as ih =>
    simp only [System.play, List.cons_append] at h ⊢
    split at h
    · exact ih _ h
    · cases h
    · cases h

/-- A step of one agent, then a run. -/
theorem System.play_cons {a : Agent} {c c' : System} (as : List Agent) (h : c.agentStep a = .next c') :
    c.play (a :: as) = c'.play as := by
  simp only [System.play, h]

/-- The run that follows the engine going on with a program, if it comes to rest in `t`. -/
def System.Reaches (p : Prog Result) (s t : State) : Prop :=
  ∃ c as, System.goOn p s = .next c ∧ c.play as = .next (.atRest t)

/-- The MCU's turn, the bus's answer and the engine's next step make one transaction (R12, R15). -/
theorem System.reaches_bus {t : Txn} {r : Except Err (List Byte) → Prog Result} {s s' : State} {o : Except Err (List Byte)} {u : State}
    (h : s.mcuActs.busActs t = match o with | .ok rs => Res.ok rs s' | .error e => Res.raised e s')
    (hr : System.Reaches (r o) s' u) : System.Reaches (.bus t r) s u := by
  obtain ⟨c, as, hc, ha⟩ := hr
  refine ⟨_, .mcu :: .bus :: .engine :: as, rfl, ?_⟩
  have hb : System.agentStep { state := s.mcuActs, prog := some (.bus t r), port := .asked t } .bus =
      .next { state := s', prog := some (.bus t r), port := .told o } := by
    simp only [System.agentStep, System.busStep, h]
    cases o <;> rfl
  have he : System.agentStep { state := s', prog := some (.bus t r), port := .told o } .engine = .next c := hc
  rw [System.play_cons _ rfl, System.play_cons _ hb, System.play_cons _ he, ha]

/-- A program run whole is a run of the agents: it delivers the same outcome, or is lost in the same transaction. -/
theorem System.reaches_run (p : Prog Result) (s : State) : match p.run s with
    | .ok r s' => System.Reaches p s (s'.deliver (.ok r))
    | .raised e s' => System.Reaches p s (s'.deliver (.error e))
    | .hung s' => System.Reaches p s s'
    | .fault _ => True
    | .refused _ => True := by
  induction p generalizing s with
  | ret a => exact ⟨_, [], rfl, rfl⟩
  | throw e => exact ⟨_, [], rfl, rfl⟩
  | fault f => trivial
  | bus t r ih =>
    rw [Prog.run_bus]
    cases h : transact t s with
    | ok rs s' =>
      have hb := ih (.ok rs) s'
      simp only
      split <;> rename_i e <;> simp only [e] at hb <;>
        first | trivial | exact System.reaches_bus (o := .ok rs) h hb
    | raised e s' =>
      have hb := ih (.error e) s'
      simp only
      split <;> rename_i e' <;> simp only [e'] at hb <;>
        first | trivial | exact System.reaches_bus (o := .error e) h hb
    | hung s' =>
      refine ⟨_, [.mcu, .bus], rfl, ?_⟩
      have hb : System.agentStep { state := s.mcuActs, prog := some (.bus t r), port := .asked t } .bus = .next (.atRest s') := by
        simp only [System.agentStep, System.busStep, show s.mcuActs.busActs t = .hung s' from h]
      rw [System.play_cons _ rfl, System.play_cons _ hb]
      rfl
    | fault f => trivial
    | refused q => trivial
  | sleep ms r ih =>
    have hb := ih (Machine.sleep ms s)
    have step : ∀ u, System.Reaches r (Machine.sleep ms s) u → System.Reaches (.sleep ms r) s u := by
      rintro u ⟨c, as, hc, ha⟩
      refine ⟨_, .mcu :: .engine :: as, rfl, ?_⟩
      have he : System.agentStep { state := s.mcuActs, prog := some (.sleep ms r), port := .free } .engine = .next c := hc
      rw [System.play_cons _ rfl, System.play_cons _ he, ha]
    rw [Prog.run_sleep]
    split <;> rename_i e <;> simp only [e] at hb <;> first | trivial | exact step _ hb
  | get r ih => exact ih s s
  | set f r ih => exact ih (f s)

/-- The life state is kept by every primitive of a request; a hang leaves the block Busy. -/
theorem busy_closed : Closed fun s s' => s.life = .busy → s'.life = .busy where
  refl _ h := h
  trans h h' hb := h' (h hb)
  keep h hb := h.life.trans hb
  plain t s h := transact_ends t s h.listed fun _ _ _ => ⟨id, fun _ _ => rfl⟩
  halt on s := by
    rw [haltCtl_run]
    exact (transact_ends _ s (listed_txHalt _ on) fun _ _ _ => ⟨id, fun _ _ => rfl⟩).bind (fun _ s' h hb => h hb) fun _ h => h
  disable s _ := transact_ends _ s (listed_txDbgDis _) fun _ _ _ => ⟨id, fun _ _ => rfl⟩
  sleep _ _ h := h

/-- A request accepted and answered by one step is a run of the engine, the bus and the MCU from its acceptance on. -/
theorem System.reaches_request {i : Instr} {q : Latches} (hq : latchesOf i = some q) {s t : State} (hl : s.life = .ready)
    (h : exec i s = .next t) : System.Reaches (programOf q.op) (s.accept q) t := by
  rw [exec_request hq, if_pos hl] at h
  have hb := busy_closed.request hq (fun _ _ _ h => h) s
  have hr := System.reaches_run (programOf q.op) (s.accept q)
  cases e : (programOf q.op).run (s.accept q) with
  | ok r s' =>
    rw [e] at h hb hr
    have hd : s'.deliver (.ok r) = t := by
      simp only [State.deliver, hb rfl]
      exact Host.Outcome.next.inj h
    exact hd ▸ hr
  | raised e' s' =>
    rw [e] at h hb hr
    have hd : s'.deliver (.error e') = t := by
      simp only [State.deliver, hb rfl]
      exact Host.Outcome.next.inj h
    exact hd ▸ hr
  | hung s' =>
    rw [e] at h hr
    exact Host.Outcome.next.inj h ▸ hr
  | fault f => rw [e] at h; cases h
  | refused r => rw [e] at h; cases h

/-- Construction by one step is a run of the engine, the bus and the MCU. -/
theorem System.reaches_construct {s t : State} (hl : s.life = .unbuilt) (h : construct s = .next t) :
    System.Reaches construction s t := by
  have hr := System.reaches_run construction s
  have hlife : ∀ s', (∀ r, construction.run s = .ok r s' → s'.life = .unbuilt) ∧
      ∀ e, construction.run s = .raised e s' → s'.life = .unbuilt := by
    obtain ⟨a, g, e, -⟩ := transact_cases txCtorProbe s rfl
    intro s'
    rw [construction_run, e]
    rcases State.conclude_cases s.mcuActs.dropFate txCtorProbe (outcomeOf txCtorProbe a) g with
      ⟨rs, -, e⟩ | ⟨k, -, e⟩ | ⟨-, e⟩ <;> rw [e]
    · exact ⟨fun _ h => (Res.ok.inj h).2 ▸ hl, fun _ h => (nomatch h)⟩
    · cases k <;> exact ⟨fun _ h => (nomatch h), fun _ h => (Res.raised.inj h).2 ▸ hl⟩
    · exact ⟨fun _ h => (nomatch h), fun _ h => (nomatch h)⟩
  unfold construct at h
  cases e : construction.run s with
  | ok r s' =>
    rw [e] at h hr
    have hd : s'.deliver (.ok r) = t := by
      simp only [State.deliver, (hlife s').1 r e]
      exact Host.Outcome.next.inj h
    exact hd ▸ hr
  | raised e' s' =>
    rw [e] at h hr
    have hd : s'.deliver (.error e') = t := by
      simp only [State.deliver, (hlife s').2 e' e]
      exact Host.Outcome.next.inj h
    exact hd ▸ hr
  | hung s' =>
    rw [e] at h hr
    exact Host.Outcome.next.inj h ▸ hr
  | fault f => rw [e] at h; cases h
  | refused r => rw [e] at h; cases h

/-- What the host port decodes is a request (R89). -/
theorem latchesOf_decoded {r : Request} {i : Instr} (h : decodeRequest r = .instr i) : ∃ q, latchesOf i = some q := by
  unfold decodeRequest at h
  split at h
  · cases h
  · split at h
    · cases h
    · next o _ _ =>
      cases o <;> simp only [decodeOperands, Decoded.need] at h <;> (repeat' split at h) <;> cases h <;> exact ⟨_, rfl⟩

/-- Every step of the machine is a run of the four agents (R15). -/
theorem step_is_played {s t : State} (h : step s = .next t) : ∃ as, (System.atRest s).play as = .next (.atRest t) := by
  unfold step at h
  split at h
  · next hl =>
    obtain ⟨c, as, hc, ha⟩ := System.reaches_construct hl h
    have he : (System.atRest s).agentStep .engine = .next c := by
      simpa [System.atRest, System.agentStep, System.engineStep, hl] using hc
    exact ⟨.engine :: as, (System.play_cons as he).trans ha⟩
  · cases h
  · next hl =>
    split at h
    · exact ⟨[.mcu], by cases h; rfl⟩
    · next i s1 hf =>
      have hs1 : s1 = s.actDone ∧ ∃ q, latchesOf i = some q := by
        unfold fetch at hf
        split at hf
        · cases hf
        · split at hf <;> cases hf
          next hd => exact ⟨rfl, latchesOf_decoded hd⟩
        · cases hf
      obtain ⟨hs1, q, hq⟩ := hs1
      have hl1 : s1.life = .ready := hs1 ▸ hl
      obtain ⟨c, as, hc, ha⟩ := System.reaches_request hq hl1 h
      have hh : (System.atRest s).agentStep .host =
          .next { state := s1.accept q, prog := some (programOf q.op), port := .free } := by
        simp [System.atRest, System.agentStep, System.hostStep, hl, hf, hq]
      have he : System.agentStep { state := s1.accept q, prog := some (programOf q.op), port := .free } .engine = .next c := by
        rw [← hc]
        cases q.op <;> rfl
      exact ⟨.host :: .engine :: as, by rw [System.play_cons _ hh, System.play_cons _ he, ha]⟩
    · cases h
    · next s1 hf =>
      have hh : (System.atRest s).agentStep .host = .next (.atRest s1.release) := by
        simp [System.atRest, System.agentStep, System.hostStep, hl, hf]
      cases h
      exact ⟨[.host], by rw [System.play_cons _ hh]; rfl⟩
  · split at h
    · exact ⟨[.mcu], by cases h; rfl⟩
    · cases h

end Sys2Proof.Machine
end

