-- ==== Sys2Proof/Laws/PerInstr.lean ====
section
/-! SUPPORT. Statements for every instruction: its encoding is one that the checks of Sys2Proof/WellFormed.lean admit. -/

namespace Sys2Proof.Laws.EncodingListed

open Sys2Proof

/-- The checks admit the encoding of an instruction: a request that R91 admits, or a transaction that R76 lists. -/
def Statement (i : Instr) : Prop := ∀ p : Params,
  match encode p i with
  | .request r => r.wellFormed = true
  | .frame _ t => t.listed p = true

theorem ispRead (start length : Int) : Statement (.ispRead start length) := fun _ => rfl

theorem ispWrite (start : Int) (payload : Option (List Byte)) : Statement (.ispWrite start payload) := fun _ => rfl

theorem ispDump (start : Int) (length last : Option Int) : Statement (.ispDump start length last) := fun _ => rfl

theorem xdataRead (start length : Int) (halt : Bool) : Statement (.xdataRead start length halt) := fun _ => rfl

theorem xdataWrite (start : Int) (payload : Option (List Byte)) (halt : Bool) : Statement (.xdataWrite start payload halt) := fun _ => rfl

theorem xdataDump (start : Int) (length last : Option Int) (halt : Bool) : Statement (.xdataDump start length last halt) := fun _ => rfl

theorem eepromRead (start length : Int) (target : Byte) (halt : Bool) : Statement (.eepromRead start length target halt) := fun _ => rfl

theorem eepromWrite (start : Int) (payload : Option (List Byte)) (target : Byte) (halt : Bool) : Statement (.eepromWrite start payload target halt) := fun _ => rfl

theorem eepromDump (start : Int) (length last : Option Int) (target : Byte) (halt : Bool) : Statement (.eepromDump start length last target halt) := fun _ => rfl

theorem ispEnabled : Statement .ispEnabled := fun _ => rfl

theorem ispSetEnabled (on force : Bool) : Statement (.ispSetEnabled on force) := fun _ => rfl

theorem dbgEnabled : Statement .dbgEnabled := fun _ => rfl

theorem dbgSetEnabled (on force : Bool) : Statement (.dbgSetEnabled on force) := fun _ => rfl

theorem dbgSetAuto (on : Bool) : Statement (.dbgSetAuto on) := fun _ => rfl

theorem ispReset : Statement .ispReset := fun _ => rfl

theorem dbgHalt (on : Bool) : Statement (.dbgHalt on) := fun _ => rfl

theorem fIspPtr (a : Byte) : Statement (.fIspPtr a) := fun _ => rfl

theorem fIspData : Statement .fIspData := fun _ => rfl

theorem fIspWr (a v : Byte) : Statement (.fIspWr a v) := fun _ => rfl

theorem fIspCtrl (e : Bool) : Statement (.fIspCtrl e) := fun p => by cases e <;> rfl

theorem fIspReset : Statement .fIspReset := fun _ => rfl

theorem fIspQuery : Statement .fIspQuery := fun _ => rfl

theorem fCtorProbe : Statement .fCtorProbe := fun _ => rfl

theorem fHalt (h : Bool) : Statement (.fHalt h) := fun p => by cases h <;> simp [encode, Txn.listed, txHalt, cmdHalt, haltVal, runVal]

theorem fXdataRd (a : Addr16) : Statement (.fXdataRd a) := fun p => by simp [encode, Txn.listed, txXdataRd]

theorem fXdataWr (a : Addr16) (v : Byte) : Statement (.fXdataWr a v) := fun p => by simp [encode, Txn.listed, txXdataWr]

theorem fEeRd (a : Addr16) (t : Byte) : Statement (.fEeRd a t) := fun p => by simp [encode, Txn.listed, txEeRd]

theorem fEeWr (a : Addr16) (t v : Byte) : Statement (.fEeWr a t v) := fun p => by simp [encode, Txn.listed, txEeWr]

theorem fDbgData : Statement .fDbgData := fun _ => rfl

theorem fDbgProbe : Statement .fDbgProbe := fun _ => rfl

theorem fDbgEn : Statement .fDbgEn := fun p => by simp [encode, Txn.listed, txDbgEn]

theorem fDbgDis : Statement .fDbgDis := fun p => by simp [encode, Txn.listed, txDbgDis]

end Sys2Proof.Laws.EncodingListed
end

