-- ==== Sys2Proof/Laws/Quiet.lean ====
section
/-! SUPPORT. What each primitive does when the transport answers as the reference device and the MCU cannot write: one equation
per frame and per operation of the engine. -/

namespace Sys2Proof.Machine

/-- The two address bytes of a frame make the address again (R46, R47). -/
@[simp] theorem joinAddr_split (a : Addr16) : joinAddr (hi8 a) (lo8 a) = a := by
  unfold joinAddr hi8 lo8
  ext i hi
  simp only [BitVec.getElem_append, BitVec.getElem_extractLsb']
  split
  · simp [BitVec.getElem_eq_testBit_toNat, BitVec.getLsbD]
  · have : 8 + (i - 8) = i := by omega
    simp [this, BitVec.getElem_eq_testBit_toNat, BitVec.getLsbD]

/-! Events add up. -/

@[simp] theorem State.after_after (s : State) (e1 e2 : List Event) (g1 g2 : Target) :
    (s.after e1 g1).after e2 g2 = s.after (e1 ++ e2) g2 := by
  simp [State.after]

section after
variable (s : State) (es : List Event) (g : Target)
@[simp] theorem State.after_life : (s.after es g).life = s.life := rfl
@[simp] theorem State.after_haltedFlag : (s.after es g).haltedFlag = s.haltedFlag := rfl
@[simp] theorem State.after_debugAutoEnable : (s.after es g).debugAutoEnable = s.debugAutoEnable := rfl
@[simp] theorem State.after_latches : (s.after es g).latches = s.latches := rfl
@[simp] theorem State.after_phase : (s.after es g).phase = s.phase := rfl
@[simp] theorem State.after_autoTaken : (s.after es g).autoTaken = s.autoTaken := rfl
@[simp] theorem State.after_bracketOpen : (s.after es g).bracketOpen = s.bracketOpen := rfl
@[simp] theorem State.after_result : (s.after es g).result = s.result := rfl
@[simp] theorem State.after_pendingError : (s.after es g).pendingError = s.pendingError := rfl
@[simp] theorem State.after_trace : (s.after es g).trace = s.trace ++ es := rfl
@[simp] theorem State.after_responses : (s.after es g).responses = s.responses := rfl
@[simp] theorem State.after_target : (s.after es g).target = g := rfl
@[simp] theorem State.after_cfg : (s.after es g).cfg = s.cfg := rfl
@[simp] theorem State.after_host : (s.after es g).host = s.host := rfl
@[simp] theorem State.after_oracle : (s.after es g).oracle = s.oracle := rfl
@[simp] theorem State.after_mcu : (s.after es g).mcu = s.mcu.drop es.length := rfl
end after

theorem State.Quiet.mcuActs {s : State} (h : s.Quiet) : s.mcuActs = { s with mcu := s.mcu.tail } := by
  obtain ⟨-, h | h⟩ := h
  · simp [State.mcuActs, h]
  · simp [State.mcuActs, Target.mcuTurn_halted _ _ h]

theorem State.Quiet.after {s : State} (h : s.Quiet) (es : List Event) {g : Target} (hg : g.mcuHalted = s.target.mcuHalted) :
    (s.after es g).Quiet := by
  obtain ⟨ho, h | h⟩ := h
  · exact ⟨ho, .inl (by simp [h])⟩
  · exact ⟨ho, .inr (by simpa [hg] using h)⟩

theorem State.Quiet.of_nil {s : State} (ho : s.oracle = []) (hm : s.mcu = []) : s.Quiet := ⟨ho, .inl hm⟩

/-- A transaction the reference device answers with success. -/
theorem State.Quiet.ok {t : Txn} {s : State} {rs : List Byte} {g : Target} (h : s.Quiet)
    (hw : s.target.owedWrite = 0) (ha : s.target.reply s.cfg t = some (.ok rs, g)) (hr : outcomeOf t (.ok rs) = .ok rs) :
    transact t s = .ok rs (s.after [eventOf t (.ok rs)] g) := by
  rw [← Target.answer_settled _ _ _ hw] at ha
  rw [transact_eq, h.mcuActs, h.1]
  simp [transactAs, State.dropFate, ha, hr, State.conclude, State.record, State.after, h.1]

/-- A transaction the reference device does not answer. -/
theorem State.Quiet.err {t : Txn} {s : State} {k : ErrClass} {g : Target} (h : s.Quiet)
    (hw : s.target.owedWrite = 0) (ha : s.target.reply s.cfg t = some (.err k, g)) :
    transact t s = .raised (.transportError k) (s.after [eventOf t (.err k)] g) := by
  have hr : outcomeOf t (.err k) = .err k := by cases t <;> rfl
  rw [← Target.answer_settled _ _ _ hw] at ha
  rw [transact_eq, h.mcuActs, h.1]
  simp [transactAs, State.dropFate, ha, hr, State.conclude, State.record, State.after, raise, h.1]

/-- A delay. -/
theorem State.Quiet.sleep {s : State} (h : s.Quiet) (ms : Nat) : sleep ms s = s.after [.d ms] (s.target.wait ms) := by
  unfold Machine.sleep
  rw [h.mcuActs]
  simp [State.slept, State.record, State.after]

/-- Two targets that differ in the data port of the debug interface only (R70). -/
structure Target.SameCore (g t : Target) : Prop where
  isp : g.isp = t.isp
  ispPtr : g.ispPtr = t.ispPtr
  debugMode : g.debugMode = t.debugMode
  mcuHalted : g.mcuHalted = t.mcuHalted
  xdata : g.xdata = t.xdata
  eeprom : g.eeprom = t.eeprom
  owedWrite : g.owedWrite = t.owedWrite
  owedMem : g.owedMem = t.owedMem
  owedCmd : g.owedCmd = t.owedCmd

theorem Target.SameCore.refl (t : Target) : t.SameCore t := by constructor <;> rfl

theorem Target.SameCore.trans {a b c : Target} (h : a.SameCore b) (h' : b.SameCore c) : a.SameCore c := by
  constructor <;> simp [h.isp, h.ispPtr, h.debugMode, h.mcuHalted, h.xdata, h.eeprom, h.owedWrite, h.owedMem, h.owedCmd,
    h'.isp, h'.ispPtr, h'.debugMode, h'.mcuHalted, h'.xdata, h'.eeprom, h'.owedWrite, h'.owedMem, h'.owedCmd]

theorem Target.SameCore.peek {g t : Target} (h : g.SameCore t) (x : Loc) : g.peek x = t.peek x := by
  cases x <;> simp [Target.peek, h.isp, h.xdata, h.eeprom]

theorem Target.SameCore.answers {g t : Target} (h : g.SameCore t) (ha : t.Answers) : g.Answers :=
  ⟨h.debugMode.trans ha.1, ⟨h.owedCmd.trans ha.2.1.1, h.owedMem.trans ha.2.1.2⟩, h.owedWrite.trans ha.2.2⟩

theorem Target.Settled.wait {t : Target} (h : t.Settled) (ms : Nat) : (t.wait ms).Settled := ⟨⟨by simp [h.1], by simp [h.1]⟩, by simp [h.2]⟩

/-- A read setup whose delay has passed changes nothing but the data port, and no delay is owed (R71). -/
theorem Target.setup_settled {t : Target} (h : t.Settled) (l : Loc) {ms w : Nat} (hw : ms ≤ w) :
    ((t.setup l ms).wait w).SameCore t := by
  constructor <;> simp [h.1, h.2, Nat.sub_eq_zero_of_le hw]

/-- A debug write that has settled: the byte is stored and no delay is owed (R71). -/
theorem Target.store_settled {t : Target} (h : t.Settled) (l : Loc) (v : Byte) {ms w : Nat} (hw : ms ≤ w) :
    ((t.store l v ms).wait w).SameCore (t.poke l v) := by
  constructor <;> simp [h.1, h.2, Nat.sub_eq_zero_of_le hw]

/-- A read of the data port gives one byte and changes nothing but the port (R70, R72). -/
theorem Target.dbgData_cases (t : Target) : ∃ b, (t.dbgData 1).1 = .ok [b] ∧ (t.dbgData 1).2.SameCore t := by
  unfold Target.dbgData
  split
  · split
    · exact ⟨_, rfl, by constructor <;> rfl⟩
    · exact ⟨_, rfl, by constructor <;> rfl⟩
  · exact ⟨_, rfl, by constructor <;> rfl⟩
  · exact ⟨_, rfl, by constructor <;> rfl⟩

/-! The ISP sub-device (R66). -/

theorem State.Quiet.ispQuery {s : State} (h : s.Quiet) (hw : s.target.owedWrite = 0) :
    transact txIspQuery s = .ok [s.target.peek (.isp 0x6f)]
      (s.after [rOk .isp [0x6f] [s.target.peek (.isp 0x6f)]] { s.target with ispPtr := 0x6f }) :=
  h.ok hw rfl rfl

theorem State.Quiet.ispPtr {s : State} (h : s.Quiet) (hw : s.target.owedWrite = 0) (a : Byte) :
    transact (txIspPtr a) s = .ok [] (s.after [wOk .isp [a]] { s.target with ispPtr := a }) := h.ok hw rfl rfl

theorem State.Quiet.ispData {s : State} (h : s.Quiet) (hw : s.target.owedWrite = 0) :
    transact txIspData s = .ok [s.target.peek (.isp s.target.ispPtr)]
      (s.after [rOk .isp [] [s.target.peek (.isp s.target.ispPtr)]] s.target) := h.ok hw rfl rfl

theorem State.Quiet.ispWr {s : State} (h : s.Quiet) (hw : s.target.owedWrite = 0) {a v : Byte} (hr : ¬(a = 0xee ∧ v = 0x03)) :
    transact (txIspWr a v) s = .ok [] (s.after [wOk .isp [a, v]] ({ s.target with ispPtr := a }.poke (.isp a) v)) :=
  h.ok hw (congrArg (Option.map fun g => (Answer.ok [], g)) (if_neg hr)) rfl

theorem State.Quiet.ispWr_reset {s : State} (h : s.Quiet) (hw : s.target.owedWrite = 0) :
    transact (txIspWr 0xee 0x03) s = .ok [] (s.after [wOk .isp [0xee, 0x03]] s.target.redraw) := h.ok hw rfl rfl

theorem State.Quiet.ispReset {s : State} (h : s.Quiet) (hw : s.target.owedWrite = 0) :
    transact txIspReset s = .ok [] (s.after [wOk .isp [0xee, 0x03]] s.target.redraw) := h.ok hw rfl rfl

/-! The debug interface (R68 to R72). -/

section debug
variable {s : State} (h : s.Quiet) (ha : s.target.Answers)
include h

theorem State.Quiet.dbgEn (hw : s.target.owedWrite = 0) : transact (txDbgEn s.cfg) s = .ok []
    (s.after [wOk .ddc s.cfg.enable.bytes] { s.target with debugMode := true, owedCmd := max s.target.owedCmd 50 }) :=
  h.ok hw (by simp [txDbgEn, Target.reply, Target.ddcFrame, tMode]) rfl

theorem State.Quiet.silent {t : Txn} (hd : s.target.debugMode = false) (ho : s.target.Settled)
    (ht : (∃ bs, t = .w .dbg bs) ∨ ∃ ws n, t = .wr .dbg ws n) :
    transact t s = .raised (.transportError .unreachable) (s.after [eventOf t (.err .unreachable)] s.target) := by
  apply h.err ho.2
  rcases ht with ⟨bs, rfl⟩ | ⟨ws, n, rfl⟩
  · simp [Target.reply, Target.dbgFrame, hd, ho.1]
  · simp [Target.reply, Target.dbgRead, hd, ho.1]

include ha

theorem State.Quiet.dbgDis : transact (txDbgDis s.cfg) s = .ok []
    (s.after [wOk .dbg s.cfg.disable.bytes] { s.target with debugMode := false, owedCmd := 50 }) :=
  h.ok ha.2.2 (by simp [txDbgDis, Target.reply, Target.dbgFrame, ha.1, ha.2.1, tMode]) rfl

theorem State.Quiet.dbgHalt (on : Bool) (hd : s.cfg.disable.bytes ≠ [0x80, if on then 0x01 else 0x00]) :
    transact (txHalt on) s = .ok []
      (s.after [wOk .dbg [0x80, if on then 0x01 else 0x00]] { s.target with mcuHalted := on, owedCmd := 100 }) := by
  apply h.ok ha.2.2 _ rfl
  cases on
  · have hd' : ¬[(0x80#8 : Byte), 0x00#8] = s.cfg.disable.bytes := fun e => hd (by simp [← e])
    simp [txHalt, Target.reply, Target.dbgFrame, Target.dbgCommand, ha.1, ha.2.1, cmdHalt, haltVal, runVal, tHalt, hd']
  · have hd' : ¬[(0x80#8 : Byte), 0x01#8] = s.cfg.disable.bytes := fun e => hd (by simp [← e])
    simp [txHalt, Target.reply, Target.dbgFrame, Target.dbgCommand, ha.1, ha.2.1, cmdHalt, haltVal, tHalt, hd']

theorem State.Quiet.xdataRd (a : Addr16) : transact (txXdataRd a) s = .ok []
    (s.after [wOk .dbg [0x3a, lo8 a, hi8 a]] (s.target.setup (.xdata a) (if s.target.mcuHalted then 0 else 10))) :=
  h.ok ha.2.2 (by simp [txXdataRd, Target.reply, Target.dbgFrame, Target.dbgCommand, ha.1, ha.2.1, DisableSeq.bytes,
    Target.xdataSettle, tSettle]) rfl

theorem State.Quiet.xdataWr (a : Addr16) (v : Byte) : transact (txXdataWr a v) s = .ok []
    (s.after [wOk .dbg [0x3b, lo8 a, hi8 a, v]]
      (s.target.store (.xdata a) v (if s.target.mcuHalted then 0 else 10))) :=
  h.ok ha.2.2 (by simp [txXdataWr, Target.reply, Target.dbgFrame, Target.dbgCommand, ha.1, ha.2.1, DisableSeq.bytes,
    Target.xdataSettle, tSettle]) rfl

theorem State.Quiet.eeRd (a : Addr16) (t : Byte) : transact (txEeRd a t) s = .ok []
    (s.after [wOk .dbg [0x44, lo8 a, t, 0x00, hi8 a]]
      (s.target.setup (.eeprom t a) (10 + if s.target.mcuHalted then 0 else 10))) :=
  h.ok ha.2.2 (by simp [txEeRd, Target.reply, Target.dbgFrame, Target.dbgCommand, ha.1, ha.2.1, DisableSeq.bytes,
    Target.eepromSettle, tSettle, tEeprom]) rfl

theorem State.Quiet.eeWr (a : Addr16) (t v : Byte) : transact (txEeWr a t v) s = .ok []
    (s.after [wOk .dbg [0x04, lo8 a, t, v, hi8 a]]
      (s.target.store (.eeprom t a) v (10 + if s.target.mcuHalted then 0 else 10))) :=
  h.ok ha.2.2 (by simp [txEeWr, Target.reply, Target.dbgFrame, Target.dbgCommand, ha.1, ha.2.1, DisableSeq.bytes, cmdEeRd, cmdEeWr,
    Target.eepromSettle, tSettle, tEeprom]) rfl

/-- A compliant data read (R71). -/
theorem State.Quiet.dbgData {l : Loc} (hl : s.target.readSetup = some l) (ho : s.target.owedRead = 0) :
    transact txDbgData s = .ok [s.target.peek l]
      (s.after [rOk .dbg [] [s.target.peek l]] { s.target with dataOut := some (s.target.peek l) }) :=
  h.ok ha.2.2 (by simp [txDbgData, Target.reply, Target.dbgRead, Target.dbgData, ha.1, ha.2.1, hl, ho]) rfl

/-- The probe of a debug interface that answers: some byte, and nothing but the data port changes (R72, R114). -/
theorem State.Quiet.dbgProbe : ∃ b g, transact txDbgProbe s = .ok [b] (s.after [rOk .dbg [] [b]] g) ∧ g.SameCore s.target := by
  have e : ∃ b g, s.target.reply s.cfg txDbgProbe = some (.ok [b], g) ∧ g.SameCore s.target := by
    have e : s.target.reply s.cfg txDbgProbe = some (s.target.dbgData 1) := by
      simp [txDbgProbe, Target.reply, Target.dbgRead, ha.1, ha.2.1, dbgProbeN, dbgProbeWs]
    obtain ⟨b, hb, hg⟩ := s.target.dbgData_cases
    exact ⟨b, _, e.trans (congrArg some (Prod.ext hb rfl)), hg⟩
  obtain ⟨b, g, e, hg⟩ := e
  exact ⟨b, g, h.ok ha.2.2 e rfl, hg⟩

end debug

/-! The mode gate (41_mode_gate.md). -/

theorem State.Quiet.queryIsp {s : State} (h : s.Quiet) (hw : s.target.owedWrite = 0) :
    queryIspEnabled.run s = .ok ((s.target.peek (.isp 0x6f)).getLsbD 7)
      (s.after [rOk .isp [0x6f] [s.target.peek (.isp 0x6f)]] { s.target with ispPtr := 0x6f }) := by
  simp [queryIspEnabled_run, h.ispQuery hw]

theorem State.Quiet.queryDebug_on {s : State} (h : s.Quiet) (ha : s.target.Answers) :
    ∃ b g, queryDebugEnabled.run s = .ok true (s.after [rOk .dbg [] [b]] g) ∧ g.SameCore s.target := by
  obtain ⟨b, g, e, hg⟩ := h.dbgProbe ha
  exact ⟨b, g, by simp [queryDebugEnabled_run, e], hg⟩

theorem State.Quiet.queryDebug_off {s : State} (h : s.Quiet) (hd : s.target.debugMode = false) (ho : s.target.Settled) :
    queryDebugEnabled.run s = .ok false (s.after [probeOff] s.target) := by
  have e : transact txDbgProbe s = .raised (.transportError .unreachable) (s.after [probeOff] s.target) :=
    h.silent hd ho (.inr ⟨_, _, rfl⟩)
  simp [queryDebugEnabled_run, e]

theorem State.Quiet.haltCtl {s : State} (h : s.Quiet) (ha : s.target.Answers) (on : Bool)
    (hd : s.cfg.disable.bytes ≠ [0x80, if on then 0x01 else 0x00]) (hm : on = false → s.mcu = []) :
    (haltCtl on).run s = .ok () ({ s with haltedFlag := on }.after [wOk .dbg [0x80, if on then 0x01 else 0x00], .d 100]
      { s.target with mcuHalted := on, owedRead := s.target.owedRead - 100 }) := by
  have hq : ((s.after [wOk .dbg [0x80, if on then 0x01 else 0x00]] { s.target with mcuHalted := on, owedCmd := 100 }).setHalted
      on).Quiet := by
    refine ⟨h.1, ?_⟩
    cases on
    · exact .inl (by simp [State.setHalted, hm rfl])
    · exact .inr rfl
  rw [haltCtl_run, h.dbgHalt ha on hd]
  simp only [Res.bind_ok, tHalt]
  rw [hq.sleep]
  simp [State.after, State.setHalted, Target.wait, ha.2.1, ha.2.2]

end Sys2Proof.Machine
end

