-- ==== Sys2Proof/Laws/Runs.lean ====
section
/-! SUPPORT. Whole requests when the transport answers as the reference device and the MCU cannot write: the transfers of the three
spaces, the loop over them, the guard, the bracket and the range operation. -/

namespace Sys2Proof.Machine

/-! The address bytes of the statements are those of the frames (R46, R47, R86). -/

theorem lo8_addr16 (a : Int) : lo8 (addr16 a) = loByte a := by
  apply BitVec.eq_of_toNat_eq
  simp [lo8, addr16, loByte, BitVec.toNat_ofInt]
  omega

theorem hi8_addr16 (a : Int) : hi8 (addr16 a) = hiByte a := by
  apply BitVec.eq_of_toNat_eq
  simp [hi8, addr16, hiByte, BitVec.toNat_ofInt, Nat.shiftRight_eq_div_pow]
  omega

/-! Debug mode switched (R117). -/

theorem State.Quiet.enable {s : State} (h : s.Quiet) (ho : s.target.Settled) :
    ∃ g, debugWrite true s = .ok () (s.after [.d 50, wOk .ddc s.cfg.enable.bytes, .d 50] g) ∧
      g.SameCore { s.target with debugMode := true } := by
  have h1 : (s.after [.d 50] (s.target.wait 50)).Quiet := h.after _ rfl
  have h2 := h1.dbgEn (by simp [ho.2])
  have h3 : ((s.after [.d 50] (s.target.wait 50)).after [wOk .ddc s.cfg.enable.bytes]
      { s.target.wait 50 with debugMode := true, owedCmd := max (s.target.wait 50).owedCmd 50 }).Quiet := h1.after _ rfl
  unfold debugWrite
  simp only [Bool.not_true, Bool.false_and, Bool.false_eq_true, if_false]
  rw [h.sleep]
  simp only [tMode, txDebug, if_true] at *
  erw [h2]
  simp only [Res.bind_ok]
  erw [h3.sleep]
  refine ⟨_, by simp only [State.after_after, List.cons_append, List.nil_append]; rfl, ?_⟩
  constructor <;> simp [Target.wait, ho.1, ho.2]

theorem State.Quiet.disable {s : State} (h : s.Quiet) (ha : s.target.Answers) (hf : s.haltedFlag = false) :
    ∃ g, debugWrite false s = .ok () (s.after [.d 50, wOk .dbg s.cfg.disable.bytes, .d 50] g) ∧
      g.SameCore { s.target with debugMode := false } := by
  have h1 : (s.after [.d 50] (s.target.wait 50)).Quiet := h.after _ rfl
  have a1 : (s.after [.d 50] (s.target.wait 50)).target.Answers := ⟨ha.1, ha.2.wait _⟩
  have h2 := h1.dbgDis a1
  have h3 : ((s.after [.d 50] (s.target.wait 50)).after [wOk .dbg s.cfg.disable.bytes]
      { s.target.wait 50 with debugMode := false, owedCmd := 50 }).Quiet := h1.after _ rfl
  unfold debugWrite
  simp only [hf, Bool.and_false, Bool.false_eq_true, if_false]
  rw [h.sleep]
  simp only [tMode, txDebug, Bool.false_eq_true, if_false] at *
  erw [h2]
  simp only [Res.bind_ok]
  erw [h3.sleep]
  refine ⟨_, by simp only [State.after_after, List.cons_append, List.nil_append]; rfl, ?_⟩
  constructor <;> simp [Target.wait, ha.2.1, ha.2.2]

/-! The transfers (R138 to R152). -/

@[simp] theorem Target.wait_zero (t : Target) : t.wait 0 = t := rfl

@[simp] theorem Target.wait_wait (t : Target) (a b : Nat) : (t.wait a).wait b = t.wait (a + b) := by
  simp [Target.wait, Nat.sub_sub]

@[simp] theorem Target.wait_peek (t : Target) (a : Nat) (l : Loc) : (t.wait a).peek l = t.peek l := by cases l <;> rfl

@[simp] theorem Target.setup_peek (t : Target) (a : Nat) (l x : Loc) : (t.setup l a).peek x = t.peek x := by cases x <;> rfl

theorem State.Quiet.settle {s : State} (h : s.Quiet) (halt : Bool) :
    settled halt s = s.after (settleEvents halt) (s.target.wait (if halt then 0 else 10)) := by
  cases halt
  · simp [settled, settleEvents, tSettle, h.sleep]
  · simp [settled, settleEvents, State.after]

theorem State.Quiet.settleAfter {s : State} (h : s.Quiet) (halt : Bool) (evs : List Event) (g : Target)
    (hg : g.mcuHalted = s.target.mcuHalted) :
    settled halt (s.after evs g) = s.after (evs ++ settleEvents halt) (g.wait (if halt then 0 else 10)) := by
  rw [(h.after evs hg).settle halt, State.after_after, State.after_target]

theorem State.Quiet.sleepAfter {s : State} (h : s.Quiet) (ms : Nat) (evs : List Event) (g : Target)
    (hg : g.mcuHalted = s.target.mcuHalted) : Machine.sleep ms (s.after evs g) = s.after (evs ++ [.d ms]) (g.wait ms) := by
  rw [(h.after evs hg).sleep ms, State.after_after, State.after_target]

theorem State.Quiet.readIsp {s : State} (h : s.Quiet) (hw : s.target.owedWrite = 0) (a : Int) :
    (readIsp a).run s = .ok (s.target.ispAt a)
      (s.after [wOk .isp [loByte a], rOk .isp [] [s.target.ispAt a]] { s.target with ispPtr := loByte a }) := by
  have h1 : (s.after [wOk .isp [isp8 a]] { s.target with ispPtr := isp8 a }).Quiet := h.after _ rfl
  rw [readIsp_run, h.ispPtr hw, Res.bind_ok, h1.ispData hw]
  simp [Target.ispAt, loByte, isp8, Target.peek]

theorem State.Quiet.writeIsp {s : State} (h : s.Quiet) (hw : s.target.owedWrite = 0) (a : Int) (v : Byte) (hr : ¬(loByte a = 0xee ∧ v = 0x03)) :
    (writeIsp a v).run s = .ok () (s.after [wOk .isp [loByte a, v]]
      ({ s.target with ispPtr := loByte a }.poke (.isp (loByte a)) v)) := by
  have e := h.ispWr hw hr
  rw [writeIsp_run]
  erw [e]
  rfl

/-- The data read after a read setup and its delays (R71). -/
theorem State.Quiet.dataAfterSetup {s : State} (h : s.Quiet) (ha : s.target.Answers) (l : Loc) (ms w : Nat) (hw : ms ≤ w)
    (evs : List Event) :
    ∃ g, transact txDbgData (s.after evs ((s.target.setup l ms).wait w)) =
        .ok [s.target.peek l] (s.after (evs ++ [rOk .dbg [] [s.target.peek l]]) g) ∧ g.SameCore s.target := by
  have h1 : (s.after evs ((s.target.setup l ms).wait w)).Quiet := h.after _ rfl
  have hc := Target.setup_settled ha.2 l hw
  have a1 : (s.after evs ((s.target.setup l ms).wait w)).target.Answers := hc.answers ha
  have e := h1.dbgData a1 (l := l) rfl (Nat.sub_eq_zero_of_le hw)
  simp only [State.after_target, Target.wait_peek, Target.setup_peek, State.after_after] at e
  exact ⟨_, e, by constructor <;> simp [ha.2.1, ha.2.2, Nat.sub_eq_zero_of_le hw]⟩

theorem State.Quiet.readXdata {s : State} (h : s.Quiet) (ha : s.target.Answers) (a : Int) (halt : Bool)
    (hh : halt = true → s.target.mcuHalted = true) :
    ∃ g, (readXdata a halt).run s = .ok (s.target.xdataAt a)
        (s.after ([wOk .dbg [0x3a, loByte a, hiByte a]] ++ settleEvents halt ++ [rOk .dbg [] [s.target.xdataAt a]]) g) ∧
      g.SameCore s.target := by
  obtain ⟨g, e, hg⟩ := h.dataAfterSetup ha (.xdata (addr16 a)) (if s.target.mcuHalted then 0 else 10)
    (if halt then 0 else 10) (by cases halt <;> simp_all; split <;> simp)
    ([wOk .dbg [0x3a, lo8 (addr16 a), hi8 (addr16 a)]] ++ settleEvents halt)
  refine ⟨g, ?_, hg⟩
  rw [readXdata_run, h.xdataRd ha, Res.bind_ok, h.settleAfter halt _ (s.target.setup _ _) rfl, e]
  simp only [Res.bind_ok, lo8_addr16, hi8_addr16]
  rfl

theorem State.Quiet.readEeprom {s : State} (h : s.Quiet) (ha : s.target.Answers) (a : Int) (t : Byte) (halt : Bool)
    (hh : halt = true → s.target.mcuHalted = true) :
    ∃ g, (readEeprom a t halt).run s = .ok (s.target.eepromAt t a)
        (s.after ([wOk .dbg [0x44, loByte a, t, 0x00, hiByte a], .d 10] ++ settleEvents halt ++
          [rOk .dbg [] [s.target.eepromAt t a]]) g) ∧
      g.SameCore s.target := by
  obtain ⟨g, e, hg⟩ := h.dataAfterSetup ha (.eeprom t (addr16 a)) (10 + if s.target.mcuHalted then 0 else 10)
    (10 + if halt then 0 else 10) (by cases halt <;> simp_all; split <;> simp)
    ([wOk .dbg [0x44, lo8 (addr16 a), t, 0x00, hi8 (addr16 a)], .d 10] ++ settleEvents halt)
  refine ⟨g, ?_, hg⟩
  rw [readEeprom_run, h.eeRd ha, Res.bind_ok, h.sleepAfter _ _ (s.target.setup _ _) rfl,
    h.settleAfter halt _ ((s.target.setup _ _).wait _) rfl, Target.wait_wait]
  erw [e]
  simp only [Res.bind_ok, lo8_addr16, hi8_addr16]
  rfl

theorem Target.SameCore.poke {g t : Target} (h : g.SameCore t) (l : Loc) (v : Byte) : (g.poke l v).SameCore (t.poke l v) := by
  cases l <;> constructor <;>
    simp [Target.poke, h.isp, h.ispPtr, h.debugMode, h.mcuHalted, h.xdata, h.eeprom, h.owedWrite, h.owedMem, h.owedCmd]

theorem State.Quiet.writeXdata {s : State} (h : s.Quiet) (ha : s.target.Answers) (a : Int) (v : Byte) (halt : Bool)
    (hh : halt = true → s.target.mcuHalted = true) :
    ∃ g, (writeXdata a v halt).run s = .ok ()
        (s.after (wOk .dbg [0x3b, loByte a, hiByte a, v] :: settleEvents halt) g) ∧
      g.SameCore (s.target.poke (.xdata (addr16 a)) v) := by
  have e := h.xdataWr ha (addr16 a) v
  generalize hg : Target.store _ _ _ _ = g0 at e
  rw [writeXdata_run, e, Res.bind_ok, h.settleAfter halt _ g0 (by rw [← hg]; simp)]
  simp only [lo8_addr16, hi8_addr16]
  refine ⟨_, rfl, ?_⟩
  rw [← hg]
  exact Target.store_settled ha.2 _ _ (by cases halt <;> simp_all; split <;> simp)

theorem State.Quiet.writeEeprom {s : State} (h : s.Quiet) (ha : s.target.Answers) (a : Int) (t v : Byte) (halt : Bool)
    (hh : halt = true → s.target.mcuHalted = true) :
    ∃ g, (writeEeprom a t v halt).run s = .ok ()
        (s.after ([wOk .dbg [0x04, loByte a, t, v, hiByte a], .d 10] ++ settleEvents halt) g) ∧
      g.SameCore (s.target.poke (.eeprom t (addr16 a)) v) := by
  have e := h.eeWr ha (addr16 a) t v
  generalize hg : Target.store _ _ _ _ = g0 at e
  rw [writeEeprom_run, e, Res.bind_ok, h.sleepAfter _ _ g0 (by rw [← hg]; simp), h.settleAfter halt _ (g0.wait _) (by rw [← hg]; simp)]
  simp only [lo8_addr16, hi8_addr16, tEeprom, Target.wait_wait]
  refine ⟨_, rfl, ?_⟩
  rw [← hg]
  exact Target.store_settled ha.2 _ _ (by cases halt <;> simp_all; split <;> simp)

/-! The loop (R125). -/

/-- `k` transfers from index `i` on, each of which does what `one` says. -/
theorem transfers_quiet (p : Plan) (c : Params) (n : Nat) (J : Nat → Target → Prop) (halted : Bool)
    (hJ : ∀ j g, J j g → g.mcuHalted = halted) (out : Nat → List Byte) (evs : Nat → List Event)
    (one : ∀ j s, j < n → s.Quiet → s.cfg = c → J j s.target →
      ∃ g, (p.transfer j).run s = .ok () ({ s with result := s.result ++ out j }.after (evs j) g) ∧ J (j + 1) g) :
    ∀ k i s, i + k ≤ n → s.Quiet → s.cfg = c → J i s.target →
      ∃ ph g, (p.transfers k i).run s = .ok () ({ s with phase := ph, result := s.result ++ (List.range' i k).flatMap out }.after
        ((List.range' i k).flatMap evs) g) ∧ J (i + k) g := by
  intro k
  induction k with
  | zero => intro i s _ _ _ hJi; exact ⟨s.phase, s.target, by simp [State.after], hJi⟩
  | succ k ih =>
    intro i s hn h hc hJi
    obtain ⟨g, e, hg⟩ := one i s (by omega) h hc hJi
    have hm : g.mcuHalted = s.target.mcuHalted := (hJ _ _ hg).trans (hJ _ _ hJi).symm
    have h1 : (p.move true ({ s with result := s.result ++ out i }.after (evs i) g)).Quiet :=
      State.Quiet.after (s := { s with result := s.result ++ out i }) h _ hm
    obtain ⟨ph, g', e', hg'⟩ := ih (i + 1) _ (by omega) h1 (by exact hc) hg
    refine ⟨ph, g', ?_, by rw [← Nat.add_assoc, Nat.add_right_comm]; exact hg'⟩
    simp only [Plan.transfers_succ_run, e, Res.bind_ok, e', List.range'_succ, List.flatMap_cons]
    simp [State.after, Plan.move, State.move]

/-! The range operation (R125). -/

/-- What stands between the gate and the exit: the checks, the bracket and the transfers. -/
def Plan.core (p : Plan) (s : State) : Res Unit :=
  (p.check.run (p.move true s)).bind fun _ s =>
  (p.haltOpen.run (p.move true s)).bind fun _ s => p.closed ((p.transfers p.count 0).run s)

theorem Plan.program_eq (p : Plan) (s : State) : p.program.run s =
    (p.gate.run (p.move true s)).bind fun _ s => (p.core s).bind fun _ s => (p.exit.run s).bind fun _ s =>
      .ok (if p.write then .void else .bytes s.result) s := by
  rw [Plan.program_run]
  unfold Plan.core
  simp only [Res.bind_assoc]

theorem Plan.core_plain {p : Plan} {s : State} (hck : ∀ s, p.check.run s = .ok () s) (hb : p.bracket = false) (h : s.Quiet)
    (ho : s.bracketOpen = false) (J : Nat → Target → Prop) (hJ : ∀ j g, J j g → g.mcuHalted = s.target.mcuHalted)
    (hJ0 : J 0 s.target) (out : Nat → List Byte) (evs : Nat → List Event)
    (one : ∀ j s', j < p.count → s'.Quiet → s'.cfg = s.cfg → J j s'.target →
      ∃ g, (p.transfer j).run s' = .ok () ({ s' with result := s'.result ++ out j }.after (evs j) g) ∧ J (j + 1) g) :
    ∃ ph g, p.core s = .ok () ({ s with phase := ph, result := s.result ++ (List.range p.count).flatMap out }.after
      ((List.range p.count).flatMap evs) g) ∧ J p.count g := by
  obtain ⟨ph, g, e, hg⟩ := transfers_quiet p s.cfg p.count J s.target.mcuHalted hJ out evs one p.count 0
    (p.move true (p.move true s)) (by omega) h rfl hJ0
  rw [Nat.zero_add] at hg
  refine ⟨ph, g, ?_, hg⟩
  simp only [Plan.core, hck, Res.bind_ok, Plan.haltOpen_run, hb, Bool.false_eq_true, if_false, e, Plan.closed]
  simp only [State.after_bracketOpen, List.range_eq_range', Plan.move_bracketOpen, ho, Bool.false_eq_true, if_false]
  simp [State.after]

theorem Plan.core_bracket {p : Plan} {s : State} (hck : ∀ s, p.check.run s = .ok () s) (hb : p.bracket = true)
    (horc : s.oracle = []) (hm : s.mcu = []) (hp : s.pendingError = none) (ha : s.target.Answers) (hd : HaltDistinct s.cfg)
    (J : Nat → Target → Prop) (hJ : ∀ j g, J j g → g.mcuHalted = true ∧ g.Answers)
    (hJ0 : ∀ g : Target, g.SameCore { s.target with mcuHalted := true } → J 0 g) (out : Nat → List Byte) (evs : Nat → List Event)
    (one : ∀ j s', j < p.count → s'.Quiet → s'.cfg = s.cfg → J j s'.target →
      ∃ g, (p.transfer j).run s' = .ok () ({ s' with result := s'.result ++ out j }.after (evs j) g) ∧ J (j + 1) g) :
    ∃ ph g g', p.core s = .ok () (State.after
        { s with haltedFlag := false, phase := ph, bracketOpen := false, result := s.result ++ (List.range p.count).flatMap out }
      (inBracket true ((List.range p.count).flatMap evs)) g') ∧ J p.count g ∧ g'.SameCore { g with mcuHalted := false } := by
  have h0 : (p.move true (p.move true s)).Quiet := ⟨horc, .inl hm⟩
  have e1 := h0.haltCtl ha true (by simpa using hd.1) (by simp)
  generalize hs1 : State.after _ _ _ = s1 at e1
  have hs1' : p.move true s1.markOpen = (State.after
      { s with haltedFlag := true, phase := (p.move true s1.markOpen).phase, bracketOpen := true } [wOk .dbg [0x80, 0x01], .d 100]
      { s.target with mcuHalted := true, owedRead := s.target.owedRead - 100 }) := by
    rw [← hs1]; rfl
  obtain ⟨ph, g, e2, hg⟩ := transfers_quiet p s.cfg p.count J true (fun j g hg => (hJ j g hg).1) out evs one p.count 0
    (p.move true s1.markOpen) (by omega) (by rw [hs1']; exact ⟨horc, .inl (by simp [hm])⟩) (by rw [hs1']; rfl)
    (by rw [hs1']; exact hJ0 _ (by constructor <;> rfl))
  rw [Nat.zero_add] at hg
  generalize hs2 : State.after _ _ _ = s2 at e2
  have hs2' : s2.markClosed = (State.after
      { s with haltedFlag := true, phase := ph, bracketOpen := false, result := s.result ++ (List.range p.count).flatMap out }
      ([wOk .dbg [0x80, 0x01], .d 100] ++ (List.range p.count).flatMap evs) g) := by
    rw [← hs2, hs1', List.range_eq_range']
    simp [State.after, State.markClosed, hm]
  have e3 := State.Quiet.haltCtl (s := s2.markClosed) (by rw [hs2']; exact ⟨horc, .inl (by simp [hm])⟩)
    (by rw [hs2']; exact (hJ _ _ hg).2) false (by rw [hs2']; simpa using hd.2) (by rw [hs2']; simp [hm])
  have hbo : s2.bracketOpen = true := by rw [← hs2, hs1']; rfl
  have hpe : s2.markClosed.pendingError = none := by rw [hs2']; exact hp
  have hmc : s2.mcu = [] := by rw [← hs2, hs1']; simp [hm]
  generalize hs3 : State.after _ _ _ = s3 at e3
  have hpe3 : s3.pendingError = none := by rw [← hs3]; exact hpe
  refine ⟨(p.move true s3).phase, g, s3.target, ?_, hg, ?_⟩
  · simp only [Plan.core, hck, Res.bind_ok, Plan.haltOpen_run, hb, if_true, e1, e2, Plan.closed, hbo, Plan.haltClose_run, e3, hpe3]
    rw [← hs3, hs2']
    simp [State.after, Plan.move, State.move, inBracket, hm]
  · have := (hJ _ _ hg).2.2.1
    have := (hJ _ _ hg).2.2.2
    rw [← hs3, hs2']
    constructor <;> simp [*]

end Sys2Proof.Machine
end

