-- ==== Sys2Proof/Laws/Requests.lean ====
section
/-! SUPPORT. From a request to its range operation: the plan a range request runs, the checks it passes, its gate and its answer. -/

namespace Sys2Proof.Machine

theorem State.Quiet.accept {s : State} (h : s.Quiet) (q : Latches) : (s.accept q).Quiet := h

theorem State.Serves.quiet {s : State} (h : s.Serves) : s.Quiet := ⟨h.2.1, .inl h.2.2⟩

theorem State.ServesDebug.quiet {s : State} {halt : Bool} (h : s.ServesDebug halt) : s.Quiet := ⟨h.2.1, h.2.2.imp id (·.2)⟩

/-- Accepting a request, some events and the response: what the statements call an answered request. -/
theorem State.respond_after (s : State) (q : Latches) (i : Instr) (hq : latchesOf i = some q) (evs : List Event) (g : Target)
    (r : Response) : ((s.accept q).after evs g).respond r = (s.after evs g).answered i r := by
  simp [State.respond, State.answered, State.after, State.accept, hq]

/-- A range request runs the operation of its plan. -/
theorem exec_range {i : Instr} {q : Latches} {p : Plan} (hq : latchesOf i = some q) (hp : q.plan = some p) (s : State)
    (hl : s.life = .ready) : exec i s = (p.program.run (s.accept q)).finish := by
  have hs : q.space ≠ none := by intro h; simp [Latches.plan, h] at hp
  have hb : (programOf q.op).run (s.accept q) = rangeOp.run (s.accept q) := by
    cases i <;> simp only [latchesOf, reduceCtorEq, Option.some.injEq] at hq <;> subst hq <;>
      first | (simp at hs; done) | rfl
  rw [exec_request hq, if_pos hl, hb, rangeOp, withLatches_run _ (State.accept_latches s q), hp]

/-- The plan of what a range request asks for. -/
theorem plan_of_asked {i : Instr} {sp : Space} {a : Int} {n : Option Int} {w : Bool} (h : rangeAsked i = some (sp, a, n, w)) :
    ∃ q, latchesOf i = some q ∧
      q.plan = some { space := sp, write := w, start := a, length := n.getD 0, payload := q.payload, halt := q.halt,
                      target := q.target } ∧
      bracketed i = (sp != .isp && q.halt) ∧ (w = true → n = q.payload.map fun l => (l.length : Int)) ∧ (w = false → n ≠ none) := by
  cases i <;> simp only [rangeAsked, reduceCtorEq, Option.some.injEq, Prod.mk.injEq] at h
  all_goals obtain ⟨rfl, rfl, rfl, rfl⟩ := h
  all_goals refine ⟨_, rfl, ?_, ?_⟩
  all_goals simp [Latches.plan, Latches.rangeLength, Op.isWrite, Op.isDump, dumpAsks, dumpLength, dumpLenDefault, bracketed]
  case ispDump.refine_1 n e => cases n <;> cases e <;> rfl
  case xdataDump.refine_1 n e _ => cases n <;> cases e <;> rfl
  case eepromDump.refine_1 n e _ _ => cases n <;> cases e <;> rfl
  all_goals first
    | (rename_i v; cases v <;> rfl)
    | (rename_i v _; cases v <;> rfl)
    | (rename_i v _ _; cases v <;> rfl)

theorem validate_isp (a n : Int) : validate .isp a n =
    if a < 0 then some (.rangeError .isp .start a 0) else if a > 0xff then some (.rangeError .isp .start a 0xff)
    else if a + n - 1 < 0 then some (.rangeError .isp .stop (a + n - 1) 0)
    else if a + n - 1 > 0xff then some (.rangeError .isp .stop (a + n - 1) 0xff) else none := rfl

theorem validate_xdata (a n : Int) : validate .xdata a n =
    if a < 0 then some (.rangeError .xdata .start a 0) else if a > 0xffff then some (.rangeError .xdata .start a 0xffff)
    else if a + n - 1 < 0 then some (.rangeError .xdata .stop (a + n - 1) 0)
    else if a + n - 1 > 0xffff then some (.rangeError .xdata .stop (a + n - 1) 0xffff) else none := rfl

theorem validate_eeprom (a n : Int) : validate .eeprom a n =
    if a < 0 then some (.rangeError .eeprom .start a 0) else if a > 0xffff then some (.rangeError .eeprom .start a 0xffff)
    else if a + n - 1 < 0 then some (.rangeError .eeprom .stop (a + n - 1) 0)
    else if a + n - 1 > 0xffff then some (.rangeError .eeprom .stop (a + n - 1) 0xffff) else none := rfl

theorem validate_window {sp : Space} {a n hi : Int} (hh : hi = (windowOf sp).2) (h : InWindow hi a n) :
    validate sp a n = none := by
  obtain ⟨h1, h2, h3, h4⟩ := h
  cases sp <;> simp only [windowOf] at hh <;> subst hh
  · rw [validate_isp, if_neg (by omega), if_neg (by omega), if_neg (by omega), if_neg (by omega)]
  · rw [validate_xdata, if_neg (by omega), if_neg (by omega), if_neg (by omega), if_neg (by omega)]
  · rw [validate_eeprom, if_neg (by omega), if_neg (by omega), if_neg (by omega), if_neg (by omega)]

/-- The checks pass: a write has a payload and the range lies in the window (R106, R111). -/
theorem Plan.check_ok {p : Plan} (h1 : p.write = true → p.payload ≠ none) (h2 : validate p.space p.start p.length = none)
    (s : State) : p.check.run s = .ok () s := by
  rw [Plan.check_run]
  cases hw : p.write
  · simp [h2]
  · cases hp : p.payload with
    | none => exact absurd hp (h1 hw)
    | some l => simp [h2]

theorem Plan.gate_debug {p : Plan} (hsp : p.space ≠ .isp) (s : State) : p.gate.run s = debugGuardEnter.run s := by
  unfold Plan.gate
  cases h : p.space <;> simp_all

/-- The gate of a debug request, debug mode on, no policy (R122). -/
theorem Plan.gate_probe {p : Plan} {s : State} (hsp : p.space ≠ .isp) (h : s.Quiet) (ha : s.target.Answers)
    (hpol : s.debugAutoEnable = false) :
    ∃ b g, p.gate.run (p.move true s) =
        .ok () (State.after { s with autoTaken := false, phase := (p.move true s).phase } [rOk .dbg [] [b]] g) ∧
      g.SameCore s.target := by
  have hq : ((p.move true s).latchAuto).Quiet := h
  obtain ⟨b, g, e, hg⟩ := hq.queryDebug_on ha
  refine ⟨b, g, ?_, hg⟩
  rw [Plan.gate_debug hsp]
  rw [debugGuardEnter_run]
  have ht : (p.move true s).latchAuto.autoTaken = false := hpol
  simp only [ht, Bool.false_eq_true, if_false, e, Res.bind_ok, if_true]
  simp [State.after, Plan.move, State.move, State.latchAuto, hpol]

/-- The gate of a debug request under the policy, debug mode off (R122). -/
theorem Plan.gate_enable {p : Plan} {s : State} (hsp : p.space ≠ .isp) (h : s.Quiet) (hd : s.target.debugMode = false)
    (ho : s.target.Settled) (hpol : s.debugAutoEnable = true) :
    ∃ ph g, p.gate.run (p.move true s) = .ok () (State.after { s with autoTaken := true, phase := ph }
        [probeOff, .d 50, wOk .ddc s.cfg.enable.bytes, .d 50] g) ∧
      g.SameCore { s.target with debugMode := true } := by
  have hq : ((p.move true s).latchAuto.move false 0 true).Quiet := h
  have e1 := hq.queryDebug_off hd ho
  have hA := hq.after [probeOff] (g := s.target) rfl
  obtain ⟨g, e2, hg⟩ := hA.enable ho
  refine ⟨((p.move true s).latchAuto.move false 0 true).phase, g, ?_, hg⟩
  rw [Plan.gate_debug hsp]
  rw [debugGuardEnter_run]
  have ht : (p.move true s).latchAuto.autoTaken = true := hpol
  simp only [ht, if_true, setDebugEnabled_run, Bool.false_eq_true, if_false, e1, Res.bind_ok]
  refine Eq.trans e2 ?_
  simp [State.after, Plan.move, State.move, State.latchAuto, hpol]

/-- The gate of a debug request under the policy, debug mode on already (R122). -/
theorem Plan.gate_enabled {p : Plan} {s : State} (hsp : p.space ≠ .isp) (h : s.Quiet) (ha : s.target.Answers)
    (hpol : s.debugAutoEnable = true) :
    ∃ ph b g, p.gate.run (p.move true s) = .ok () (State.after { s with autoTaken := true, phase := ph } [rOk .dbg [] [b]] g) ∧
      g.SameCore s.target := by
  have hq : ((p.move true s).latchAuto.move false 0 true).Quiet := h
  obtain ⟨b, g, e, hg⟩ := hq.queryDebug_on ha
  refine ⟨((p.move true s).latchAuto.move false 0 true).phase, b, g, ?_, hg⟩
  rw [Plan.gate_debug hsp]
  rw [debugGuardEnter_run]
  have ht : (p.move true s).latchAuto.autoTaken = true := hpol
  simp only [ht, if_true, setDebugEnabled_run, Bool.false_eq_true, if_false, e, Res.bind_ok]
  simp [State.after, Plan.move, State.move, State.latchAuto, hpol]

/-- The gate of an ISP request, ISP mode on (R123). -/
theorem Plan.gate_isp {p : Plan} {s : State} (hsp : p.space = .isp) (h : s.Quiet) (hw : s.target.owedWrite = 0)
    (hon : s.target.IspOn) :
    p.gate.run (p.move true s) = .ok () ((p.move true s).after [rOk .isp [0x6f] [s.target.peek (.isp 0x6f)]]
      { s.target with ispPtr := 0x6f }) := by
  have hq : (p.move true s).Quiet := h
  have e := hq.queryIsp hw
  unfold Plan.gate
  rw [hsp]
  simp only [ispGuard_run, e, Res.bind_ok]
  rw [if_pos (by exact hon)]
  rfl

end Sys2Proof.Machine
end

