-- ==== Sys2Proof/Machine/Assembly.lean ====
section
/-! DEFINITION. The text the spec writes requests and traces in (R93, R94) and the other names of requests (R95): an assembler
from one line of text to a host request, and the text of a trace. What R93 does not say is log 31. -/

namespace Sys2Proof.Machine

/-- The mnemonic of an operation (R90). -/
def Op.mnemonic : Op → String
  | .ispRead       => "isp.read"
  | .ispWrite      => "isp.write"
  | .ispDump       => "isp.dump"
  | .xdataRead     => "xdata.read"
  | .xdataWrite    => "xdata.write"
  | .xdataDump     => "xdata.dump"
  | .eepromRead    => "eeprom.read"
  | .eepromWrite   => "eeprom.write"
  | .eepromDump    => "eeprom.dump"
  | .ispEnabled    => "isp.enabled"
  | .ispSetEnabled => "isp.set_enabled"
  | .dbgEnabled    => "dbg.enabled"
  | .dbgSetEnabled => "dbg.set_enabled"
  | .dbgSetAuto    => "dbg.set_auto"
  | .ispReset      => "isp.reset"
  | .dbgHalt       => "dbg.halt"

/-- The operands of a request (R89). `last` is written `end`. -/
inductive Field where
  | start
  | length
  | last
  | payload
  | halt
  | target
  | on
  | force
deriving DecidableEq, Repr

/-- Every operand with its name (R89). -/
def Field.names : List (String × Field) :=
  [("start", .start), ("length", .length), ("end", .last), ("payload", .payload), ("halt", .halt), ("target", .target),
   ("on", .on), ("force", .force)]

/-- The operands that need no name, in the order of R90's operand column. -/
def Op.positional : Op → List Field
  | .ispRead | .ispDump => [.start, .length]
  | .ispWrite => [.start, .payload]
  | .xdataRead | .xdataDump => [.start, .length, .halt]
  | .xdataWrite => [.start, .payload, .halt]
  | .eepromRead | .eepromDump => [.start, .length, .target, .halt]
  | .eepromWrite => [.start, .payload, .target, .halt]
  | .ispSetEnabled | .dbgSetEnabled => [.on, .force]
  | .dbgSetAuto | .dbgHalt => [.on]
  | .ispEnabled | .dbgEnabled | .ispReset => []

/-- The value of an operand (R93). `absent` is the word `none`. -/
inductive Value where
  | int (v : Int)
  | bool (b : Bool)
  | bytes (bs : List Byte)
  | absent
deriving DecidableEq, Repr

/-- One operand as written. -/
structure Arg where
  name  : Option Field
  value : Value
deriving DecidableEq, Repr

/-! Reading the text (R93). -/

/-- The value of a hex digit. -/
def hexDigit (c : Char) : Option Nat :=
  if '0' ≤ c ∧ c ≤ '9' then some (c.toNat - 48)
  else if 'a' ≤ c ∧ c ≤ 'f' then some (c.toNat - 87)
  else if 'A' ≤ c ∧ c ≤ 'F' then some (c.toNat - 55)
  else none

/-- The number some digits write in a base, on top of `acc`. -/
def digits (base : Nat) : List Char → Nat → Option Nat
  | [], acc => some acc
  | c :: cs, acc =>
    match hexDigit c with
    | some d => if d < base then digits base cs (acc * base + d) else none
    | none => none

/-- At least one digit. -/
def number (base : Nat) (cs : List Char) : Option Nat := if cs = [] then none else digits base cs 0

/-- `integer` of R93. -/
def readInt : List Char → Option Int
  | '0' :: 'x' :: cs => (number 16 cs).map fun n => (n : Int)
  | '-' :: cs => (number 10 cs).map fun n => -(n : Int)
  | cs => (number 10 cs).map fun n => (n : Int)

/-- Blanks removed at both ends. -/
def trim (cs : List Char) : List Char := ((cs.dropWhile (· == ' ')).reverse.dropWhile (· == ' ')).reverse

/-- The parts between the commas that stand outside brackets. -/
def splitCommas : List Char → Nat → List Char → List (List Char)
  | [], _, part => [part.reverse]
  | c :: cs, depth, part =>
    if c = ',' ∧ depth = 0 then part.reverse :: splitCommas cs 0 []
    else splitCommas cs (if c = '[' then depth + 1 else if c = ']' then depth - 1 else depth) (c :: part)

/-- The list elements or operands of a text; none in a blank text. -/
def parts (cs : List Char) : List (List Char) :=
  if trim cs = [] then [] else (splitCommas cs 0 []).map trim

/-- A byte: an integer of 0 to 255 (R89). -/
def byteOfInt (v : Int) : Option Byte := if 0 ≤ v ∧ v ≤ 255 then some (BitVec.ofInt 8 v) else none

/-- `value` of R93. -/
def readValue (cs : List Char) : Option Value :=
  if cs = "true".toList then some (.bool true)
  else if cs = "false".toList then some (.bool false)
  else if cs = "none".toList then some .absent
  else match cs with
    | '[' :: cs =>
      if cs.getLast? = some ']' then
        ((parts cs.dropLast).mapM fun p => (readInt p).bind byteOfInt).map .bytes
      else none
    | cs => (readInt cs).map .int

/-- The operand of a name. -/
def Field.ofName (cs : List Char) : Option Field := (Field.names.find? fun p => p.1.toList == cs).map (·.2)

/-- `operand` of R93. -/
def readArg (cs : List Char) : Option Arg :=
  if cs.elem '=' then do
    let f ← Field.ofName (trim (cs.takeWhile (· != '=')))
    let v ← readValue (trim ((cs.dropWhile (· != '=')).drop 1))
    some { name := some f, value := v }
  else (readValue cs).map fun v => { name := none, value := v }

/-- The operation of a mnemonic, and the operand another name of it stands for (R95). -/
def readMnemonic (cs : List Char) : Option (Op × List Arg) :=
  let flag (o : Op) (b : Bool) : Option (Op × List Arg) := some (o, [{ name := none, value := .bool b }])
  if cs = "isp.enable".toList then flag .ispSetEnabled true
  else if cs = "isp.disable".toList then flag .ispSetEnabled false
  else if cs = "dbg.enable".toList then flag .dbgSetEnabled true
  else if cs = "dbg.disable".toList then flag .dbgSetEnabled false
  else if cs = "dbg.run".toList then flag .dbgHalt false
  else (Op.all.find? fun o => (Op.mnemonic o).toList == cs).map fun o => (o, [])

/-- One operand put into a request: not twice, and a value of its type (R89). -/
def Field.put (r : Request) : Field → Value → Option Request
  | .start, .int v => if r.start.isNone then some { r with start := some v } else none
  | .length, .int v => if r.length.isNone then some { r with length := some v } else none
  | .last, .int v => if r.last.isNone then some { r with last := some v } else none
  | .payload, .bytes bs => if r.payload.isNone then some { r with payload := some (some bs) } else none
  | .payload, .absent => if r.payload.isNone then some { r with payload := some none } else none
  | .halt, .bool b => if r.halt.isNone then some { r with halt := some b } else none
  | .target, .int v => if r.target.isNone then (byteOfInt v).map fun t => { r with target := some t } else none
  | .on, .bool b => if r.on.isNone then some { r with on := some b } else none
  | .force, .bool b => if r.force.isNone then some { r with force := some b } else none
  | _, _ => none

/-- The operands put into a request; those without a name take the next place of the column (R93). -/
def putArgs (r : Request) : List Field → List Arg → Option Request
  | _, [] => some r
  | places, { name := some f, value := v } :: args => (f.put r v).bind fun r => putArgs r places args
  | f :: places, { name := none, value := v } :: args => (f.put r v).bind fun r => putArgs r places args
  | [], { name := none, value := _ } :: _ => none

/-- One line of text assembled (R93, R95): none where the line is no request of the syntax. -/
def assemble (line : List Char) : Option Request := do
  let cs := trim (line.takeWhile (· != ';'))
  let (o, given) ← readMnemonic (cs.takeWhile (· != ' '))
  let args ← (parts (cs.dropWhile (· != ' '))).mapM readArg
  putArgs { op := o.code } (Op.positional o) (given ++ args)

/-! Writing a trace (R94). -/

/-- A byte in two hex digits. -/
def hexByte (b : Byte) : List Char := [Nat.digitChar (b.toNat / 16), Nat.digitChar (b.toNat % 16)]

/-- Bytes between brackets, without blanks. -/
def hexBytes (bs : List Byte) : List Char := '[' :: (List.intercalate [','] (bs.map hexByte)) ++ [']']

/-- The name of a sub-device. -/
def Dev.text : Dev → List Char
  | .isp => "ISP".toList
  | .ddc => "DDC".toList
  | .dbg => "DBG".toList

/-- The class of a failure. -/
def ErrClass.text : ErrClass → List Char
  | .unreachable => "Unreachable".toList
  | .other => "Other".toList

/-- What follows a transaction. A transaction that never returns has no form in R94 (log 31). -/
def Answer.text (reads : Bool) : Answer → List Char
  | .ok rs => if reads then "->".toList ++ hexBytes rs else []
  | .err k => "/err(".toList ++ ErrClass.text k ++ [')']
  | .hang => "/hang".toList

/-- One event in the syntax of R94. -/
def Event.text : Event → List Char
  | .w dev bs a => "W(".toList ++ Dev.text dev ++ [','] ++ hexBytes bs ++ [')'] ++ Answer.text false a
  | .wr dev ws n a =>
    "WR(".toList ++ Dev.text dev ++ [','] ++ hexBytes ws ++ [','] ++ Nat.toDigits 10 n ++ [')'] ++ Answer.text true a
  | .d ms => "D(".toList ++ Nat.toDigits 10 ms ++ [')']

end Sys2Proof.Machine
end

