-- ==== Sys2Proof/Tests/Slice0.lean ====
section
/-! SUPPORT. Tests. Every expected value is transcribed from spec/95_test_vectors.md (the vector's name stands beside it) or from the
rule named. Then the witnesses: concrete states and operands that meet the hypotheses of the statements. -/

namespace Sys2Proof.Tests

open Sys2Proof Sys2Proof.Machine

set_option maxRecDepth 4000
set_option Elab.async false

/-! What the tests run on. -/

/-- Values for the OPEN parameters; a test that uses them holds of these values only. -/
def cfg : Params := { ispSeed := 1, ddcSeed := 2, dbgSeed := 3, enable := ⟨0xe0, 0xe1, 0xe2, 0xe3⟩, disable := ⟨0xd0, 0xd1⟩ }

/-- A block just constructed beside a target. -/
def eng (t : Target) : State := { State.reset with cfg := cfg, target := t }

/-- ISP mode on. -/
def ispOn : Target := Target.initial.poke (.isp 0x6f) 0x80

/-- Debug mode on; a read with no setup returns the byte put out before. -/
def dbgOn : Target := { Target.initial with debugMode := true, dataOut := some 0x0d }

/-- A request asked of a block: one step. -/
def ask (r : Request) (s : State) : Host.Outcome State Fault Refusal := step { s with host := [.request r] }

/-- The state after a step, the old one where there is none. -/
def after (s : State) : Host.Outcome State Fault Refusal → State
  | .next t => t
  | .fault _ => s
  | .refused _ => s

/-- A step shows this trace and this one response. -/
def shows (o : Host.Outcome State Fault Refusal) (trace : List Event) (r : Response) : Bool :=
  match o with
  | .next t => t.trace == trace && t.responses == [r]
  | .fault _ => false
  | .refused _ => false

/-- A step is refused for this reason. -/
def refuses (o : Host.Outcome State Fault Refusal) (q : Refusal) : Bool :=
  match o with
  | .refused q' => q' == q
  | .next _ => false
  | .fault _ => false

/-! The checks of Sys2Proof/WellFormed.lean, each with a term it refuses (R91, V-ENC-14, V-ENC-16 to V-ENC-18). -/

theorem test_wf_op : ({ op := 0x37 } : Request).opKnown = false := by decide +kernel
theorem test_wf_end : ({ op := 0x11, start := some 0x10, last := some 0x20 } : Request).endAllowed = false := by decide +kernel
theorem test_wf_start : ({ op := 0x11 } : Request).startGiven = false := by decide +kernel
theorem test_wf_payload : ({ op := 0x02, start := some 0 } : Request).payloadGiven = false := by decide +kernel
theorem test_wf_on : ({ op := 0x36 } : Request).onGiven = false := by decide +kernel
theorem test_wf_request : ({ op := 0x12, start := some 0, payload := some none } : Request).wellFormed = true ∧
    ({ op := 0x12, start := some 0 } : Request).wellFormed = false := by decide +kernel
theorem test_wf_frame : Txn.listed cfg (.w .dbg [0x3a, 0x00]) = false ∧ Txn.listed cfg (.w .dbg [0x80, 0x02]) = false ∧
    Txn.listed cfg (.w .dbg [0x44, 0x00, 0xa0, 0x01, 0x00]) = false ∧ Txn.listed cfg (.w .dbg [0xd0, 0xd1]) = true := by
      decide +kernel

/-! Decoding: words and frames from the encoding tables (R76, R90; 2.2). -/

theorem test_table_requests :
    [0x01, 0x02, 0x03, 0x11, 0x12, 0x13, 0x21, 0x22, 0x23].map (decodeTableWord 8) =
      [some (.ispRead 0 0), some (.ispWrite 0 (some [])), some (.ispDump 0 (some 0) none), some (.xdataRead 0 0 false),
       some (.xdataWrite 0 (some []) false), some (.xdataDump 0 (some 0) none false), some (.eepromRead 0 0 0 false),
       some (.eepromWrite 0 (some []) 0 false), some (.eepromDump 0 (some 0) none 0 false)] := by decide +kernel
theorem test_table_modes :
    [0x30, 0x31, 0x32, 0x33, 0x34, 0x35, 0x36].map (decodeTableWord 8) =
      [some .ispEnabled, some (.ispSetEnabled false false), some .dbgEnabled, some (.dbgSetEnabled false false),
       some (.dbgSetAuto false), some .ispReset, some (.dbgHalt false)] := by decide +kernel
theorem test_table_reserved : [0x00, 0x04, 0x10, 0x14, 0x20, 0x24, 0x2f, 0x37, 0xff].all (fun w => (decodeTableWord 8 w).isNone) =
    true := by decide +kernel
theorem test_fetch_word : [0x01, 0x13, 0x22, 0x36].all (fun w =>
    match fetch ((eng dbgOn).withFetchWord 8 w) with
    | .instr i _ => some i == decodeTableWord 8 w
    | .nothing => false
    | .rejected _ => false
    | .newSession _ => false) = true := by decide +kernel

theorem test_decode_f_isp_ptr : decode cfg (.frame .transfer (.w .isp [0x00])) = .instr (.fIspPtr 0x00) := by decide +kernel
theorem test_decode_f_isp_data : decode cfg (.frame .transfer (.wr .isp [] 1)) = .instr .fIspData := by decide +kernel
theorem test_decode_f_isp_wr : decode cfg (.frame .transfer (.w .isp [0xff, 0x7e])) = .instr (.fIspWr 0xff 0x7e) := by
      decide +kernel
theorem test_decode_f_isp_ctrl : decode cfg (.frame .modeSet (.w .isp [0x6f, 0x80])) = .instr (.fIspCtrl true) ∧
    decode cfg (.frame .modeSet (.w .isp [0x6f, 0x00])) = .instr (.fIspCtrl false) := by decide +kernel
theorem test_decode_f_isp_reset : decode cfg (.frame .ispReset (.w .isp [0xee, 0x03])) = .instr .fIspReset := by decide +kernel
theorem test_decode_f_isp_query : decode cfg (.frame .modeQuery (.wr .isp [0x6f] 1)) = .instr .fIspQuery := by decide +kernel
theorem test_decode_f_ctor_probe : decode cfg (.frame .construction (.wr .isp [] 1)) = .instr .fCtorProbe := by decide +kernel
theorem test_decode_f_halt : decode cfg (.frame .haltControl (.w .dbg [0x80, 0x01])) = .instr (.fHalt true) ∧
    decode cfg (.frame .haltControl (.w .dbg [0x80, 0x00])) = .instr (.fHalt false) := by decide +kernel
theorem test_decode_f_xdata_rd : decode cfg (.frame .transfer (.w .dbg [0x3a, 0x34, 0x12])) = .instr (.fXdataRd 0x1234) := by decide +kernel
theorem test_decode_f_xdata_wr : decode cfg (.frame .transfer (.w .dbg [0x3b, 0xcd, 0xab, 0x5a])) = .instr (.fXdataWr 0xabcd 0x5a) := by decide +kernel
theorem test_decode_f_ee_rd : decode cfg (.frame .transfer (.w .dbg [0x44, 0x02, 0xa0, 0x00, 0x01])) =
    .instr (.fEeRd 0x0102 0xa0) := by decide +kernel
theorem test_decode_f_ee_wr : decode cfg (.frame .transfer (.w .dbg [0x04, 0xfe, 0xa4, 0x00, 0xff])) =
    .instr (.fEeWr 0xfffe 0xa4 0x00) := by decide +kernel
theorem test_decode_f_dbg_data : decode cfg (.frame .transfer (.wr .dbg [] 1)) = .instr .fDbgData := by decide +kernel
theorem test_decode_f_dbg_probe : decode cfg (.frame .modeQuery (.wr .dbg [] 1)) = .instr .fDbgProbe := by decide +kernel
theorem test_decode_f_dbg_en : decode cfg (.frame .modeSet (.w .ddc [0xe0, 0xe1, 0xe2, 0xe3])) = .instr .fDbgEn := by
      decide +kernel
theorem test_decode_f_dbg_dis : decode cfg (.frame .modeSet (.w .dbg [0xd0, 0xd1])) = .instr .fDbgDis := by decide +kernel
theorem test_decode_unlisted : readFrame cfg (.w .dbg [0x3a, 0x00]) = .rejected .unlistedFrame := by decide +kernel
theorem test_addresses_distinct : (let p : Params := { cfg with ispSeed := 0x7f, ddcSeed := 0x7f, dbgSeed := 0x7f };
    (p.addrIsp, p.addrDdc, p.addrDbg)) = (0x7f, 0x00, 0x01) := by decide +kernel

/-! The text of a request (R93, R95). -/

theorem test_assemble : assemble "xdata.write 0x1000, [0x11, 0x22], halt=true ; R93's example".toList =
    some { op := 0x12, start := some 0x1000, payload := some (some [0x11, 0x22]), halt := some true } := by decide +kernel
theorem test_assemble_alias : assemble "dbg.run".toList = some { op := 0x36, on := some false } := by decide +kernel
theorem test_assemble_refuses : assemble "isp.reset 1".toList = none ∧
      assemble "isp.read".toList = some { op := 0x01 } := by decide +kernel

/-- A trace in the syntax of R94 (V-SEQ-7, in part). -/
theorem test_trace_text :
    [Event.wr .dbg [] 1 (.ok [0x07]), .w .dbg [0x3a, 0x01, 0x00] (.err .other), .d 100].map Event.text =
      ["WR(DBG,[],1)->[07]".toList, "W(DBG,[3a,01,00])/err(Other)".toList, "D(100)".toList] := by decide +kernel

/-! The validator (2.1). -/

theorem test_validate_accepts :
    [validate .isp 0xff 1, validate .isp 0x00 256, validate .isp 0x10 0, validate .isp 0x10 (-5), validate .xdata 0x0000 0x10000,
     validate .eeprom 0xfff0 16] = [none, none, none, none, none, none] := by decide +kernel
theorem test_validate_rejects :
    [validate .isp 0xff 2, validate .isp (-1) 1, validate .isp 0x00 0, validate .isp 0x100 0, validate .isp (-5) 300,
     validate .xdata 0xffff 2, validate .eeprom 0xfff1 16] =
    [some (.rangeError .isp .stop 0x100 0xff), some (.rangeError .isp .start (-1) 0), some (.rangeError .isp .stop (-1) 0),
     some (.rangeError .isp .start 0x100 0xff), some (.rangeError .isp .start (-5) 0),
     some (.rangeError .xdata .stop 0x10000 0xffff), some (.rangeError .eeprom .stop 0x10000 0xffff)] := by decide +kernel

/-! One request each (2.3 to 2.9). A byte written `[..]` by a vector is the byte the port put out before, 0d here. -/

theorem test_isp_enabled : shows (ask { op := 0x30 } (eng (Target.initial.poke (.isp 0x6f) 0xc1))) [rOk .isp [0x6f] [0xc1]]
    (.ok (.flag true)) := by decide +kernel  -- V-MG-1
theorem test_isp_enabled_off : shows (ask { op := 0x30 } (eng (Target.initial.poke (.isp 0x6f) 0x7f))) [rOk .isp [0x6f] [0x7f]]
    (.ok (.flag false)) := by decide +kernel  -- V-MG-2
theorem test_isp_set_enabled : shows (ask { op := 0x31, on := some false } (eng (Target.initial.poke (.isp 0x6f) 0x85)))
    [rOk .isp [0x6f] [0x85], wOk .isp [0x6f, 0x00]] (.ok .void) := by decide +kernel  -- V-MG-6
theorem test_isp_set_enabled_forced : shows (ask { op := 0x31, on := some true, force := some true } (eng ispOn)) [wOk .isp [0x6f, 0x80]] (.ok .void) := by decide +kernel  -- V-MG-5
theorem test_dbg_enabled : shows (ask { op := 0x32 } (eng Target.initial)) [.wr .dbg [] 1 (.err .unreachable)]
      (.ok (.flag false)) := by decide +kernel  -- V-MG-8
theorem test_dbg_enabled_error : shows (ask { op := 0x32 } { eng Target.initial with oracle := [.override (.err .other) false] })
    [.wr .dbg [] 1 (.err .other)] (.error (.transportError .other)) := by decide +kernel  -- V-MG-18
theorem test_dbg_set_enabled : shows (ask { op := 0x33, on := some true } (eng Target.initial))
    [.wr .dbg [] 1 (.err .unreachable), .d 50, wOk .ddc [0xe0, 0xe1, 0xe2, 0xe3], .d 50] (.ok .void) := by
      decide +kernel  -- V-MG-12
theorem test_dbg_set_enabled_halted : shows (ask { op := 0x33, on := some false } { eng dbgOn with haltedFlag := true })
      [rOk .dbg [] [0x0d]]
    (.error (.invalidState .disableWhileHalted)) := by decide +kernel  -- V-MG-9
theorem test_dbg_set_auto : shows (ask { op := 0x34, on := some true } (eng Target.initial)) [] (.ok .void) ∧
    (after (eng dbgOn) (ask { op := 0x34, on := some true } (eng Target.initial))).debugAutoEnable := by
      decide +kernel  -- V-MG-19
theorem test_dbg_halt : shows (ask { op := 0x36, on := some true } (eng dbgOn)) [rOk .dbg [] [0x0d], wOk .dbg [0x80, 0x01],
      .d 100] (.ok .void) := by decide +kernel  -- V-SEQ-1
theorem test_dbg_halt_policy : shows (ask { op := 0x36, on := some true } { eng { dbgOn with debugMode := false } with debugAutoEnable := true })
    [.wr .dbg [] 1 (.err .unreachable), .d 50, wOk .ddc [0xe0, 0xe1, 0xe2, 0xe3], .d 50, wOk .dbg [0x80, 0x01],
      .d 100, rOk .dbg [] [0x0d]]
    (.error (.invalidState .disableWhileHalted)) := by decide +kernel  -- V-SEQ-4
theorem test_isp_reset : shows (ask { op := 0x35 } (eng Target.initial)) [wOk .isp [0x6f, 0x80],
      wOk .isp [0xee, 0x03]] (.ok .void) := by decide +kernel  -- V-ISP-12
theorem test_isp_reset_fails : shows (ask { op := 0x35 } { eng Target.initial with oracle := [.override (.err .other) false] })
    [.w .isp [0x6f, 0x80] (.err .other)] (.error (.transportError .other)) := by decide +kernel  -- V-ISP-13
theorem test_isp_read : shows (ask { op := 0x01, start := some 0x10, length := some 2 } (eng ((ispOn.poke (.isp 0x10) 0xde).poke (.isp 0x11) 0xad)))
    [rOk .isp [0x6f] [0x80], wOk .isp [0x10], rOk .isp [] [0xde], wOk .isp [0x11],
      rOk .isp [] [0xad]] (.ok (.bytes [0xde, 0xad])) := by decide +kernel  -- V-ISP-1
theorem test_isp_read_gate : shows (ask { op := 0x01, start := some 0x20 } (eng Target.initial)) [rOk .isp [0x6f] [0x00]]
    (.error (.preconditionFailed .isp)) := by decide +kernel  -- V-MG-21
theorem test_isp_write : shows (ask { op := 0x02, start := some 0x20, payload := some (some [0xaa, 0xbb]) } (eng ispOn))
    [rOk .isp [0x6f] [0x80], wOk .isp [0x20, 0xaa], wOk .isp [0x21, 0xbb]] (.ok .void) := by decide +kernel  -- V-ISP-6
theorem test_isp_write_payload : shows (ask { op := 0x02, start := some 0x20, payload := some none } (eng ispOn))
      [rOk .isp [0x6f] [0x80]] (.error .invalidPayload) := by decide +kernel  -- V-ISP-7
theorem test_isp_dump_end : shows (ask { op := 0x03, start := some 0x10, last := some 0x0f } (eng ispOn))
      [rOk .isp [0x6f] [0x80]] (.ok (.bytes [])) := by decide +kernel  -- V-DMP-4
theorem test_isp_dump_default : shows (ask { op := 0x03, start := some 0xf1 } (eng ispOn)) [rOk .isp [0x6f] [0x80]]
    (.error (.rangeError .isp .stop 0x100 0xff)) := by decide +kernel  -- V-DMP-3
theorem test_xdata_read : shows (ask { op := 0x11, start := some 0x1234, halt := some false } (eng ({ dbgOn with mcuHalted := true }.poke (.xdata 0x1234) 0x9e)))
    [rOk .dbg [] [0x0d], wOk .dbg [0x3a, 0x34, 0x12], .d 10, rOk .dbg [] [0x9e]] (.ok (.bytes [0x9e])) := by
      decide +kernel  -- V-XD-1
theorem test_xdata_read_fails : shows (ask { op := 0x11, start := some 0x0000, length := some 2 } { eng (dbgOn.poke (.xdata 0x0000) 0x07) with
      oracle := [.device, .device, .device, .device, .override (.err .other) false] })
    [rOk .dbg [] [0x0d], wOk .dbg [0x80, 0x01], .d 100, wOk .dbg [0x3a, 0x00, 0x00], rOk .dbg [] [0x07],
      .w .dbg [0x3a, 0x01, 0x00] (.err .other), wOk .dbg [0x80, 0x00], .d 100] (.error (.transportError .other)) := by
      decide +kernel  -- V-SEQ-7
theorem test_xdata_write : shows (ask { op := 0x12, start := some 0x00ff, payload := some (some [0x01, 0x02]) } (eng dbgOn))
    [rOk .dbg [] [0x0d], wOk .dbg [0x80, 0x01], .d 100, wOk .dbg [0x3b, 0xff, 0x00, 0x01], wOk .dbg [0x3b, 0x00, 0x01, 0x02],
      wOk .dbg [0x80, 0x00], .d 100]
    (.ok .void) := by decide +kernel  -- V-XD-5
theorem test_xdata_write_close : shows (ask { op := 0x12, start := some 0x0010, payload := some (some [0x01]) } { eng dbgOn with
      oracle := [.device, .device, .override (.err .unreachable) false, .override (.err .other) false] })
    [rOk .dbg [] [0x0d], wOk .dbg [0x80, 0x01],
      .d 100, .w .dbg [0x3b, 0x10, 0x00, 0x01] (.err .unreachable), .w .dbg [0x80, 0x00] (.err .other)]
    (.error (.transportError .other)) := by decide +kernel  -- V-SEQ-9
theorem test_xdata_dump : shows (ask { op := 0x13, start := some 0x0040, last := some 0x0040, halt := some false } (eng (dbgOn.poke (.xdata 0x0040) 0x5a)))
    [rOk .dbg [] [0x0d], wOk .dbg [0x3a, 0x40, 0x00], .d 10, rOk .dbg [] [0x5a]] (.ok (.bytes [0x5a])) := by
      decide +kernel  -- R157, V-XD-9
theorem test_xdata_dump_length : shows (ask { op := 0x13, start := some 0xffff } (eng dbgOn)) [rOk .dbg [] [0x0d]]
    (.error (.rangeError .xdata .stop 0x1000e 0xffff)) := by decide +kernel  -- R156: length 16
theorem test_eeprom_read : shows (ask { op := 0x21, start := some 0x0102 } (eng (dbgOn.poke (.eeprom 0xa0 0x0102) 0x5c)))
    [rOk .dbg [] [0x0d], wOk .dbg [0x80, 0x01], .d 100, wOk .dbg [0x44, 0x02, 0xa0, 0x00, 0x01], .d 10, rOk .dbg [] [0x5c],
      wOk .dbg [0x80, 0x00], .d 100]
    (.ok (.bytes [0x5c])) := by decide +kernel  -- V-EE-1
theorem test_eeprom_read_settle : shows (ask { op := 0x21, start := some 0x0102, halt := some false } (eng (dbgOn.poke (.eeprom 0xa0 0x0102) 0x5c)))
    [rOk .dbg [] [0x0d], wOk .dbg [0x44, 0x02, 0xa0, 0x00, 0x01],
      .d 10, .d 10, rOk .dbg [] [0x5c]] (.ok (.bytes [0x5c])) := by decide +kernel  -- V-EE-2
theorem test_eeprom_write : shows (ask { op := 0x22, start := some 0x0010, payload := some (some [0x5a]), target := some 0xa2, halt := some false } (eng dbgOn))
    [rOk .dbg [] [0x0d], wOk .dbg [0x04, 0x10, 0xa2, 0x5a, 0x00], .d 10, .d 10] (.ok .void) := by decide +kernel  -- V-EE-3
theorem test_eeprom_write_stores : let g := (after (eng dbgOn)
      (ask { op := 0x22, start := some 0x0010, payload := some (some [0x5a]), target := some 0xa2, halt := some false } (eng dbgOn))).target
    (g.peek (.eeprom 0xa2 0x0010), g.peek (.eeprom 0xa0 0x0010)) = (0x5a, 0x00) := by decide +kernel  -- V-EE-3
theorem test_eeprom_dump : shows (ask { op := 0x23, start := some 0x0000, length := some 2, target := some 0xa4, halt := some false }
      (eng ((dbgOn.poke (.eeprom 0xa4 0) 0xb0).poke (.eeprom 0xa4 1) 0xb1)))
    [rOk .dbg [] [0x0d], wOk .dbg [0x44, 0x00, 0xa4, 0x00, 0x00], .d 10, .d 10, rOk .dbg [] [0xb0],
      wOk .dbg [0x44, 0x01, 0xa4, 0x00, 0x00], .d 10, .d 10, rOk .dbg [] [0xb1]] (.ok (.bytes [0xb0, 0xb1])) := by
      decide +kernel  -- V-DMP-7

/-! Refusals, construction and the end of a session (2.2, 2.4, 2.9, 2.10). -/

theorem test_refuse_reserved : refuses (step { eng dbgOn with host := [.request { op := 0x37 }] }) (.malformed (.reservedOp 0x37)) := by decide +kernel  -- V-ENC-16
theorem test_refuse_start : refuses (ask { op := 0x11 } (eng dbgOn)) (.malformed (.missingOperand .start)) := by
      decide +kernel  -- V-ENC-17
theorem test_refuse_end : refuses (ask { op := 0x11, start := some 0x10, last := some 0x20 } (eng dbgOn)) (.malformed .endOnNonDump) := by decide +kernel  -- V-ENC-18
theorem test_refuse_dead : refuses (ask { op := 0x30 } { eng dbgOn with life := .dead }) (.notReady .dead) := by
      decide +kernel  -- V-ERR-7
theorem test_construct : shows (step { eng { dbgOn with mcuHalted := true } with life := .unbuilt, haltedFlag := true })
    [rOk .isp [] [0x00]] (.ok .void) ∧
    (after (eng dbgOn) (step { eng { dbgOn with mcuHalted := true } with life := .unbuilt, haltedFlag := true })).haltedFlag = false := by decide +kernel  -- V-RST-1, V-RST-4
theorem test_construct_fails : shows (step { eng dbgOn with life := .unbuilt, oracle := [.override (.err .unreachable) false] })
    [.wr .isp [] 1 (.err .unreachable)] (.error .deviceUnreachable) := by decide +kernel  -- V-RST-2
theorem test_hang : (after (eng dbgOn) (ask { op := 0x11, start := some 0x0000 } { eng dbgOn with
      oracle := [.device, .override .hang false] })).life = .busy := by decide +kernel  -- V-SEQ-14

/-! The bus frames on the reference device (R66 to R72). -/

theorem test_f_isp_ptr : (after (eng ispOn) (exec (.fIspPtr 0x6f) (eng ispOn))).target.ispPtr = 0x6f := by decide +kernel
theorem test_f_isp_data : (after (eng ispOn) (exec .fIspData (eng { ispOn with ispPtr := 0x6f }))).trace =
      [rOk .isp [] [0x80]] := by decide +kernel
theorem test_f_isp_wr : (after (eng ispOn) (exec (.fIspWr 0xff 0x7e) (eng ispOn))).target.peek (.isp 0xff) = 0x7e := by
      decide +kernel
theorem test_f_isp_ctrl : (after (eng ispOn) (exec (.fIspCtrl false) (eng ispOn))).target.peek (.isp 0x6f) = 0x00 := by
      decide +kernel
theorem test_f_isp_reset : (after (eng ispOn) (exec .fIspReset (eng ispOn))).trace = [wOk .isp [0xee, 0x03]] := by decide +kernel
theorem test_f_isp_query : (after (eng ispOn) (exec .fIspQuery (eng ispOn))).trace = [rOk .isp [0x6f] [0x80]] := by decide +kernel
theorem test_f_ctor_probe : (after (eng ispOn) (exec .fCtorProbe { eng ispOn with life := .unbuilt })).trace =
      [rOk .isp [] [0x00]] := by decide +kernel
theorem test_f_halt : (after (eng dbgOn) (exec (.fHalt true) (eng dbgOn))).target.mcuHalted := by decide +kernel
theorem test_f_xdata_rd : (after (eng dbgOn) (exec (.fXdataRd 0x1234) (eng (dbgOn.poke (.xdata 0x1234) 0x9e)))).target.dataOut =
    some 0x9e := by decide +kernel
theorem test_f_xdata_wr : (after (eng dbgOn) (exec (.fXdataWr 0xabcd 0x5a) (eng dbgOn))).target.xdata = [(0xabcd, 0x5a)] := by decide +kernel
theorem test_f_ee_rd : (after (eng dbgOn) (exec (.fEeRd 0x0102 0xa0) (eng (dbgOn.poke (.eeprom 0xa0 0x0102) 0x5c)))).target.dataOut =
    some 0x5c := by decide +kernel
theorem test_f_ee_wr : (after (eng dbgOn) (exec (.fEeWr 0xfffe 0xa4 0x11) (eng dbgOn))).target.peek (.eeprom 0xa4 0xfffe) = 0x11 := by decide +kernel
theorem test_f_dbg_data : (after (eng dbgOn) (exec .fDbgData (eng (dbgOn.setup (.xdata 5) 0)))).trace =
      [rOk .dbg [] [0x00]] := by decide +kernel
theorem test_f_dbg_probe : (after (eng ispOn) (exec .fDbgProbe (eng ispOn))).trace =
      [.wr .dbg [] 1 (.err .unreachable)] := by decide +kernel
theorem test_f_dbg_en : (after (eng ispOn) (exec .fDbgEn (eng ispOn))).target.debugMode := by decide +kernel
theorem test_f_dbg_dis : (after (eng dbgOn) (exec .fDbgDis (eng dbgOn))).target.debugMode = false := by decide +kernel

/-! The delays of R71, and the agents of R15. -/

theorem test_early_frame_stays_owed :
    let t := { dbgOn with owedCmd := 100 }
    ((t.answer cfg (.w .dbg [0x80, 0x01])).map fun x => x.2.owedCmd) = some 100 ∧
    (((t.tooEarly 100 0).2.wait 60).answer cfg (.wr .dbg [] 1)).map (fun x => x.2.owedCmd) = some 40 := by decide +kernel  -- R71
theorem test_early_isp_frame : ((dbgOn.store (.xdata 5) 0x5a 10).answer cfg (.w .isp [0x00])).map (fun x => x.2.xdata) =
    some ((dbgOn.poke (.xdata 5) 0x5a).poke (.xdata 5) (Config.freeByte 0)).xdata := by rfl  -- R71: the next frame, of any device
theorem test_early_dbg_frame : ([dbgOn.store (.xdata 5) 0x5a 10, dbgOn.setup (.xdata 5) 10].map fun t =>
      ([.w .dbg [0x80, 0x00], .wr .dbg [] 1] : List Txn).map fun x => (t.answer cfg x).map Prod.fst) =
    [[some (Config.freeAnswer 1), some (Config.freeAnswer 1)], [some (Config.freeAnswer 0), some (Config.freeAnswer 0)]] := by
      rfl  -- R71, U12: any outcome
theorem test_partial_write : let g := (after (eng dbgOn) (ask { op := 0x22, start := some 0, payload := some (some [0x11, 0x22]) }
      { eng dbgOn with oracle := [.device, .device, .device, .override (.err .other) true] })).target
    g.peek (.eeprom 0xa0 0x0000) = 0x11 ∧ g.debugMode = true ∧ g.mcuHalted = false := by decide +kernel  -- R151
theorem test_agents : (match (System.atRest { eng ispOn with host := [.request { op := 0x30 }], mcu := [[(0, 1)], [(0, 2)]] }).play
      [.host, .engine, .mcu, .mcu, .bus, .engine] with
    | .next c => c.state.responses == [.ok (.flag true)] && c.state.target.peek (.xdata 0) == 0x02 &&
        c.state.trace == [rOk .isp [0x6f] [0x80]]
    | .fault _ => false
    | .refused _ => false) = true := by decide +kernel  -- R15, R112

/-! The witnesses, one for every statement with hypotheses, in the statements' order. Every clause has its own values, at a boundary of
its range where it has one. -/

/-- A step answers a next state of which `p` holds. -/
def meets (o : Host.Outcome State Fault Refusal) (p : State → Bool) : Bool :=
  match o with
  | .next t => p t
  | .fault _ => false
  | .refused _ => false

/-- A block beside a target whose MCU is halted and would write XDATA. -/
def held : State := { eng { dbgOn with mcuHalted := true } with mcu := [[(0x0000, 0x55)], [(0xffff, 0x66)]] }

/-- A block under the policy, debug mode off. -/
def policy : State := { eng Target.initial with debugAutoEnable := true }

/-- The same beside an MCU that writes elsewhere. -/
def busy : State := { policy with mcu := [[(0x0000, 0x55)]] }

/-- A block whose transport answers the coming transactions so. -/
def answered (fs : List Fate) : State := { eng dbgOn with oracle := fs }

theorem witness_FrameReaderFollowsTheTable :
    cfg.disable.bytes ≠ [0x80, 0x01] ∧ cfg.disable.bytes ≠ [0x80, 0x00] ∧
    ([.w .dbg [], .w .dbg [0x80, 0x02], .w .dbg [0x3a, 0x00], .w .dbg [0x44, 0x00, 0xa0, 0x01, 0x00], .w .isp [], .w .isp [1, 2, 3],
      .w .ddc [], .w .ddc [0xe0, 0xe1, 0xe2, 0xe4], .wr .isp [0x6e] 1, .wr .isp [0x6f] 2, .wr .isp [] 0, .wr .dbg [0x6f] 1,
      .wr .dbg [] 2, .wr .ddc [] 1] : List Txn).all (fun t => !Txn.listed cfg t) := by decide +kernel

theorem witness_RequestsDecodeWithTheirDefaults :
    ([0x01, 0x11, 0x21, 0x02, 0x12, 0x22] : List Byte).all (fun c =>
      let r : Request := { op := c, start := some 0, payload := some none }
      r.start == some 0 && r.last == none && r.op == c && r.payload == some none) ∧
    ([0x03, 0x13, 0x23] : List Byte).all (fun c =>
      let r : Request := { op := c, start := some (-1), length := some 4, last := some 0 }
      r.start == some (-1) && r.op == c) ∧
    ([0x30, 0x32, 0x35, 0x31, 0x33, 0x34, 0x36] : List Byte).all (fun c =>
      let r : Request := { op := c, on := some true }
      r.last == none && r.op == c && r.on == some true) := by decide +kernel

theorem witness_MalformedRequestsAreRefused :
    ([{ op := 0x00 }, { op := 0x37 }, { op := 0xff }] : List Request).all (fun r =>
      let s : State := { eng dbgOn with host := [.request r] }
      s.life == .ready && s.host == [.request r] && !([0x01, 0x02, 0x03, 0x11, 0x12, 0x13, 0x21, 0x22, 0x23, 0x30, 0x31,
        0x32, 0x33, 0x34, 0x35, 0x36] : List Byte).contains r.op) ∧
    (let r : Request := { op := 0x36, on := some true, last := some 0 }; r.op ∈ [0x36] ∧ r.last ≠ none) ∧
    (let r : Request := { op := 0x03, last := some 0 }; r.op ∈ [0x03, 0x13, 0x23] ∧ r.start = none) ∧
    (let r : Request := { op := 0x22 }; r.op ∈ [0x02, 0x12, 0x22] ∧ r.last = none ∧ r.start = none) ∧
    (let r : Request := { op := 0x22, start := some 0 }; r.op ∈ [0x02, 0x12, 0x22] ∧ r.last = none ∧ r.start ≠ none ∧ r.payload = none) ∧
    (let r : Request := { op := 0x31 }; r.op ∈ [0x31, 0x33, 0x34, 0x36] ∧ r.last = none ∧ r.on = none) := by decide +kernel

theorem witness_EmittedFramesAreListed :
    isRequest (.dbgHalt true) = true ∧ meets (exec (.dbgHalt true) (answered [.override (.err .other) true])) (fun t => t.trace ≠ []) ∧
    meets (construct { eng dbgOn with life := .unbuilt }) (fun t => t.trace ≠ []) := by decide +kernel

theorem witness_ValidatorChecksTheWindow :
    InWindow 0xff 0xff 1 ∧ InWindow 0xff 0 256 ∧ InWindow 0xff 1 0 ∧ (-1 : Int) < 0 ∧ (0xff : Int) < 0x100 ∧
    ((0 : Int) ≤ 0 ∧ (0 : Int) ≤ 0xff ∧ (0 : Int) + 0 - 1 < 0) ∧ ((0 : Int) ≤ 0xffff ∧ (0xffff : Int) ≤ 0xffff ∧ (0xffff : Int) < 0xffff + 2 - 1) := by decide +kernel

theorem witness_StepRunsTheDecodedRequest :
    let s : State := { eng dbgOn with host := [.request { op := 0x30 }] }
    s.life = .ready ∧ s.host = .request { op := 0x30 } :: [] ∧ decodeRequest { op := 0x30 } = .instr .ispEnabled := by decide +kernel

theorem witness_ConstructionProbesTheIspAddress :
    let s : State := { eng dbgOn with life := .unbuilt }
    (s.life = .unbuilt ∧ s.oracle = [] ∧ s.mcu = [] ∧ s.target.owedWrite = 0) ∧
    { s with oracle := [.override (.err .unreachable) true] }.oracle = .override (.err .unreachable) true :: [] ∧
    { s with oracle := [.override (.err .other) false] }.oracle = .override (.err .other) false :: [] := by decide +kernel

theorem witness_OnlyAReadyBlockAccepts :
    let s : State := { eng dbgOn with life := .dead, host := [.newSession] }
    isRequest .ispEnabled = true ∧ s.life ≠ .ready ∧ s.life = .dead ∧ s.host = .newSession :: [] := by decide +kernel

theorem witness_ReleaseTouchesNothing :
    let s : State := { held with host := [.newSession] }
    s.life = .ready ∧ s.host = .newSession :: [] := by decide +kernel

theorem witness_EveryRequestIsAnsweredOnce :
    isRequest (.dbgHalt true) = true ∧ (answered [.device, .override .hang true]).life = .ready := by decide +kernel

theorem witness_HangKeepsThePhase :
    rangeAsked (.xdataRead 0 1 true) ≠ none ∧
    meets (exec (.xdataRead 0 1 true) (answered [.device, .override .hang true])) (fun t => t.life == .busy) := by decide +kernel

theorem witness_TheInvariantIsKept :
    (answered []).Inv ∧ meets (step (answered [])) (fun _ => true) ∧
    meets (exec (.fXdataWr 0xffff 0x01) (answered [])) (fun t => t.target.xdata == [(0xffff, 0x01)]) := by decide +kernel

theorem witness_HaltedFlagFollowsHaltControl :
    HaltDistinct (answered []).cfg ∧ isRequest (.dbgHalt true) = true ∧
    meets (exec (.dbgHalt true) (answered [])) (fun t => t.trace == (answered []).trace ++ [rOk .dbg [] [0x0d], wOk .dbg [0x80, 0x01], .d 100]) := by decide +kernel

theorem witness_NeverDisabledWhileHalted :
    HaltDistinct (answered []).cfg ∧ isRequest (.dbgSetEnabled false true) = true ∧
    meets (exec (.dbgSetEnabled false true) (answered [])) (fun t => t.trace == (answered []).trace ++ [.d 50, wOk .dbg [0xd0, 0xd1], .d 50]) := by decide +kernel

theorem witness_OnlyTheListedErrorsArise :
    isRequest (.ispRead 0xff 2) = true ∧
    meets (exec (.ispRead 0xff 2) (eng ispOn)) (fun t => t.responses == (eng ispOn).responses ++ [.error (.rangeError .isp .stop 0x100 0xff)]) := by decide +kernel

theorem witness_ErrorsArePrecise :
    (let s := answered [.device, .device, .override (.err .other) true]
     isRequest (.xdataWrite 0xffff (some [0x01]) true) = true ∧
     meets (exec (.xdataWrite 0xffff (some [0x01]) true) s) (fun t => t.trace == s.trace ++ [rOk .dbg [] [0x0d], wOk .dbg [0x80, 0x01],
      .d 100, .w .dbg [0x3b, 0xff, 0xff, 0x01] (.err .other), wOk .dbg [0x80, 0x00], .d 100])) ∧
    (let s := answered [.device, .device, .device, .override (.err .unreachable) false]
     meets (exec (.xdataRead 0xfffe 2 true) s) (fun t => t.trace == s.trace ++ [rOk .dbg [] [0x0d], wOk .dbg [0x80, 0x01], .d 100,
      wOk .dbg [0x3a, 0xfe, 0xff], .wr .dbg [] 1 (.err .unreachable), wOk .dbg [0x80, 0x00], .d 100])) := by decide +kernel

theorem witness_DelaysAreThoseOfTheTable :
    let s := answered []
    HaltDistinct s.cfg ∧ (latchesOf (.eepromWrite 0 (some [0x01]) 0xa0 false)).isSome = true ∧
    meets (exec (.eepromWrite 0 (some [0x01]) 0xa0 false) s) (fun t =>
      t.trace == s.trace ++ [rOk .dbg [] [0x0d], wOk .dbg [0x04, 0x00, 0xa0, 0x01, 0x00], .d 10, .d 10]) := by decide +kernel

theorem witness_MinimumDelayTime :
    let s := answered []
    HaltDistinct s.cfg ∧ rangeAsked (.eepromWrite 0 (some [0x01]) 0xa0 false) = some (.eeprom, 0, some 1, true) ∧
    (latchesOf (.eepromWrite 0 (some [0x01]) 0xa0 false)).isSome = true ∧
    meets (exec (.eepromWrite 0 (some [0x01]) 0xa0 false) s) (fun t => t.responses == s.responses ++ [.ok .void] &&
      t.trace == s.trace ++ [rOk .dbg [] [0x0d], wOk .dbg [0x04, 0x00, 0xa0, 0x01, 0x00], .d 10, .d 10]) := by decide +kernel

theorem witness_AnOpenBracketIsClosed :
    let s := answered [.device, .device, .override (.err .other) false]
    HaltDistinct s.cfg ∧ bracketed (.xdataRead 0xffff 1 true) = true ∧
    meets (exec (.xdataRead 0xffff 1 true) s) (fun t => t.life == .ready &&
      t.trace == s.trace ++ [rOk .dbg [] [0x0d], wOk .dbg [0x80, 0x01], .d 100, .w .dbg [0x3a, 0xff, 0xff] (.err .other),
        wOk .dbg [0x80, 0x00], .d 100]) := by decide +kernel

theorem witness_DumpIsRead :
    meets (exec (.ispDump 0 (some 4) (some 1)) (eng ispOn)) (fun _ => true) ∧
    meets (exec (.xdataDump 0xffff none (some 0xffff) false) (eng dbgOn)) (fun _ => true) ∧
    meets (exec (.eepromDump 0xffff (some 1) none 0x00 true) (eng dbgOn)) (fun _ => true) := by decide +kernel

theorem witness_IspEnabledTestsTheTopBit :
    (eng ispOn).Serves ∧ (eng ispOn).target.owedWrite = 0 ∧ (let s : State := { held with oracle := [.override (.ok [0x80]) false] }
    s.life = .ready ∧ s.oracle = .override (.ok [0x80]) false :: []) ∧
    { eng ispOn with oracle := [.override (.err .other) false] }.oracle = .override (.err .other) false :: [] ∧ (eng ispOn).mcu = [] := by decide +kernel

theorem witness_SetIspEnabled :
    (eng ispOn).Serves ∧ (eng ispOn).target.wf ∧ (eng ispOn).target.owedWrite = 0 ∧ ((eng ispOn).target.IspOn ↔ true = true) ∧ ¬((eng ispOn).target.IspOn ↔ false = true) := by decide +kernel

theorem witness_EnabledAfterEnabling :
    (eng Target.initial).Serves ∧ (eng Target.initial).target.wf := by decide +kernel

theorem witness_DbgEnabledProbes :
    (eng dbgOn).Serves ∧ (eng dbgOn).target.Answers ∧
    ((eng ispOn).Serves ∧ (eng ispOn).target.Settled ∧ (eng ispOn).target.debugMode = false) ∧
    ([.ok [0xff], .err .unreachable, .err .other] : List Answer).all (fun a =>
      (answered [.override a false]).life == .ready && (answered [.override a false]).oracle == .override a false :: []) ∧
    (answered []).mcu = [] := by decide +kernel

theorem witness_EnablingDebugMode :
    ((eng dbgOn).Serves ∧ (eng dbgOn).target.Settled ∧ (eng dbgOn).target.debugMode = true) ∧
    ((eng ispOn).Serves ∧ (eng ispOn).target.Settled ∧ (eng ispOn).target.debugMode = false) := by decide +kernel

theorem witness_DisablingDebugMode :
    ((eng dbgOn).Serves ∧ (eng dbgOn).target.Settled ∧ (eng dbgOn).haltedFlag = false ∧ (eng dbgOn).target.debugMode = true) ∧
    ((eng ispOn).Serves ∧ (eng ispOn).target.Settled ∧ (eng ispOn).haltedFlag = false ∧ (eng ispOn).target.debugMode = false) := by decide +kernel

theorem witness_DisablingWhileHaltedFails :
    let s : State := { held with haltedFlag := true }
    (s.life = .ready ∧ s.haltedFlag = true ∧ s.Quiet ∧ s.target.Answers) ∧
    (let u : State := { eng ispOn with haltedFlag := true }
     u.life = .ready ∧ u.haltedFlag = true ∧ u.Quiet ∧ u.target.debugMode = false ∧ u.target.Settled) := by decide +kernel

theorem witness_SetAutoAloneWritesThePolicy :
    (answered [.override .hang true]).life = .ready ∧ meets (exec (.dbgHalt true) policy) (fun _ => true) ∧
    (∀ on, Instr.dbgHalt true ≠ .dbgSetAuto on) := by decide +kernel

theorem witness_IspResetForcesThenResets :
    (eng Target.initial).Serves ∧ ((answered [.override (.err .other) false]).life = .ready ∧
    (answered [.override (.err .other) false]).oracle = .override (.err .other) false :: [] ∧ (answered []).mcu = []) := by decide +kernel

theorem witness_HaltMcu :
    (eng dbgOn).Serves ∧ (eng dbgOn).target.Answers ∧ (eng dbgOn).debugAutoEnable = false ∧ HaltDistinct (eng dbgOn).cfg := by decide +kernel

theorem witness_HaltMcuUnderThePolicy :
    policy.Serves ∧ policy.target.Settled ∧ policy.debugAutoEnable = true ∧ HaltDistinct policy.cfg := by decide +kernel

theorem witness_TheGateComesFirst :
    let s := eng Target.initial
    s.life = .ready ∧ s.Quiet ∧ rangeAsked (.ispWrite 0x100 none) = some (.isp, 0x100, none, true) ∧ ¬s.target.IspOn ∧ s.target.owedWrite = 0 ∧
    debugProtected (.xdataWrite (-1) none true) = true ∧ s.debugAutoEnable = false ∧ s.target.debugMode = false ∧ s.target.Settled := by decide +kernel

theorem witness_ThePayloadCheckComesNext :
    ((eng ispOn).life = .ready ∧ (eng ispOn).Quiet ∧ rangeAsked (.ispWrite (-1) none) = some (.isp, -1, none, true) ∧
      (eng ispOn).target.IspOn ∧ (eng ispOn).target.owedWrite = 0) ∧
    (held.life = .ready ∧ held.Quiet ∧ rangeAsked (.xdataWrite 0x10000 none true) = some (.xdata, 0x10000, none, true) ∧
      (Space.xdata ≠ .isp) ∧ held.target.Answers) := by decide +kernel

theorem witness_TheWindowCheckComesThird :
    ((eng ispOn).life = .ready ∧ (eng ispOn).Quiet ∧ rangeAsked (.ispRead 0xff 2) = some (.isp, 0xff, some 2, false) ∧
      validate .isp 0xff 2 = some (.rangeError .isp .stop 0x100 0xff) ∧ (eng ispOn).target.IspOn ∧ (eng ispOn).target.owedWrite = 0) ∧
    (held.life = .ready ∧ held.Quiet ∧ rangeAsked (.xdataRead 0 0 true) = some (.xdata, 0, some 0, false) ∧
      validate .xdata 0 0 = some (.rangeError .xdata .stop (-1) 0) ∧ Space.xdata ≠ .isp ∧ held.target.Answers) ∧
    (policy.life = .ready ∧ policy.Quiet ∧ rangeAsked (.eepromRead (-1) 1 0xa0 true) = some (.eeprom, -1, some 1, false) ∧
      validate .eeprom (-1) 1 = some (.rangeError .eeprom .start (-1) 0) ∧ policy.target.debugMode = false ∧
      policy.target.Settled ∧ policy.debugAutoEnable = true) := by
  and_intros <;> decide +kernel

theorem witness_IspReads :
    ispReads (.ispRead 0xff 1) = some (0xff, 1) ∧ ispReads (.ispDump 0 none (some 0xff)) = some (0, 256) ∧ (eng ispOn).Serves ∧
    (eng ispOn).target.owedWrite = 0 ∧ (eng ispOn).target.IspOn ∧ InWindow 0xff 0xff 1 ∧ InWindow 0xff 0 256 := by decide +kernel

theorem witness_IspWrites :
    (eng ispOn).Serves ∧ (eng ispOn).target.wf ∧ (eng ispOn).target.owedWrite = 0 ∧ (eng ispOn).target.IspOn ∧
    InWindow 0xff 0xed ([0x01, 0x02] : List Byte).length ∧
    (∀ k (h : k < ([0x01, 0x02] : List Byte).length), ¬((0xed : Int) + k = 0xee ∧ ([0x01, 0x02] : List Byte)[k] = 0x03)) := by decide +kernel

theorem witness_XdataReads :
    xdataReads (.xdataRead 0xffff 1 true) = some (0xffff, 1, true) ∧ xdataReads (.xdataDump 1 none (some 0) false) = some (1, 0, false) ∧
    (held.ServesDebug false ∧ held.target.wf ∧ held.target.Answers ∧ held.debugAutoEnable = false) ∧
    ((eng dbgOn).ServesDebug true ∧ (eng dbgOn).target.wf ∧ (eng dbgOn).target.Answers ∧ (eng dbgOn).debugAutoEnable = false ∧ HaltDistinct (eng dbgOn).cfg) ∧
    InWindow 0xffff 0xffff 1 ∧ InWindow 0xffff 1 0 := by
  and_intros <;> decide +kernel

theorem witness_XdataWrites :
    (held.ServesDebug false ∧ held.target.wf ∧ held.target.Answers ∧ held.debugAutoEnable = false) ∧
    ((eng dbgOn).ServesDebug true ∧ (eng dbgOn).target.wf ∧ (eng dbgOn).target.Answers ∧ (eng dbgOn).debugAutoEnable = false ∧ HaltDistinct (eng dbgOn).cfg) ∧
    InWindow 0xffff 0xffff ([0x01] : List Byte).length ∧ InWindow 0xffff 1 ([] : List Byte).length := by decide +kernel

theorem witness_EepromReads :
    eepromReads (.eepromRead 0xffff 1 0x00 true) = some (0xffff, 1, 0x00, true) ∧
    eepromReads (.eepromDump 0xfff0 none none 0xff false) = some (0xfff0, 16, 0xff, false) ∧
    (held.ServesDebug false ∧ held.target.wf ∧ held.target.Answers ∧ held.debugAutoEnable = false) ∧
    ((eng dbgOn).ServesDebug true ∧ (eng dbgOn).target.wf ∧ (eng dbgOn).target.Answers ∧ (eng dbgOn).debugAutoEnable = false ∧ HaltDistinct (eng dbgOn).cfg) ∧
    InWindow 0xffff 0xffff 1 ∧ InWindow 0xffff 0xfff0 16 := by
  and_intros <;> decide +kernel

theorem witness_EepromWrites :
    (held.ServesDebug false ∧ held.target.wf ∧ held.target.Answers ∧ held.debugAutoEnable = false) ∧
    ((eng dbgOn).ServesDebug true ∧ (eng dbgOn).target.wf ∧ (eng dbgOn).target.Answers ∧ (eng dbgOn).debugAutoEnable = false ∧ HaltDistinct (eng dbgOn).cfg) ∧
    InWindow 0xffff 0xffff ([0x01] : List Byte).length ∧ InWindow 0xffff 1 ([] : List Byte).length := by decide +kernel

theorem witness_RangeRequestsUnderThePolicy :
    (rangeAsked (.xdataRead 0xffff 1 true) = some (.xdata, 0xffff, some 1, false) ∧ Space.xdata ≠ .isp ∧
      policy.ServesDebug (bracketed (.xdataRead 0xffff 1 true)) ∧ policy.target.wf ∧ policy.target.Settled ∧
      policy.debugAutoEnable = true ∧ HaltDistinct policy.cfg ∧ InWindow 0xffff 0xffff 1) ∧
    (let s : State := { held with debugAutoEnable := true }
     rangeAsked (.eepromWrite 0xfffe (some [0x01, 0x02]) 0xff false) = some (.eeprom, 0xfffe, some 2, true) ∧ Space.eeprom ≠ .isp ∧
      s.ServesDebug (bracketed (.eepromWrite 0xfffe (some [0x01, 0x02]) 0xff false)) ∧ s.target.wf ∧ s.target.Settled ∧
      s.debugAutoEnable = true ∧ s.haltedFlag = false ∧ InWindow 0xffff 0xfffe 2) := by
  and_intros <;> decide +kernel

theorem witness_ThePolicyFailsWhileHalted :
    let s : State := { held with debugAutoEnable := true, haltedFlag := true }
    let u : State := { policy with haltedFlag := true }
    (rangeAsked (.xdataRead 0xffff 1 false) = some (.xdata, 0xffff, some 1, false) ∧ Space.xdata ≠ .isp ∧
      bracketed (.xdataRead 0xffff 1 false) = false ∧ s.ServesDebug false ∧ s.target.wf ∧ s.target.Settled ∧
      s.debugAutoEnable = true ∧ s.haltedFlag = true ∧ InWindow 0xffff 0xffff 1) ∧
    (rangeAsked (.eepromWrite 0 (some [0x01]) 0x00 false) = some (.eeprom, 0, some 1, true) ∧ Space.eeprom ≠ .isp ∧
      bracketed (.eepromWrite 0 (some [0x01]) 0x00 false) = false ∧ u.ServesDebug false ∧ u.target.wf ∧ u.target.Settled ∧
      u.debugAutoEnable = true ∧ u.haltedFlag = true ∧ InWindow 0xffff 0 1) := by
  and_intros <;> decide +kernel

theorem witness_DebugIsOffAfterThePolicy :
    let s : State := { policy with mcu := [[(0x0000, 0x01)]] }
    debugProtected (.xdataRead 0 1 true) = true ∧ s.oracle = [] ∧ s.target.Settled ∧ s.debugAutoEnable = true ∧
    meets (exec (.xdataRead 0 1 true) s) (fun t => t.responses == s.responses ++ [.ok (.bytes [0x01])]) := by decide +kernel

/-- What the two statements on failures inside the bracket ask of a state and a request, `pre`, `e` and `post` being its transfers. -/
def fails (s : State) (i : Instr) (sp : Space) (a n : Int) (w : Bool) (pre : List Event) (e : Event) (post : List Event) : Bool :=
  s.life == .ready && s.mcu == [] && decide s.target.wf && decide s.target.Settled &&
    (s.target.debugMode || s.debugAutoEnable) && decide (HaltDistinct s.cfg) && bracketed i &&
    rangeAsked i == some (sp, a, some n, w) && decide (InWindow 0xffff a n) &&
    transferEvents s.target i == pre ++ e :: post && e.isTxn

theorem witness_AFailedTransferClosesTheBracket :
    ([true, false] : List Bool).all (fun took =>
      let s := answered [.device, .device, .device, .override (.err .other) took]
      fails s (.eepromWrite 0xfffe (some [0x01, 0x02]) 0xff true) .eeprom 0xfffe 2 true
        [wOk .dbg [0x04, 0xfe, 0xff, 0x01, 0xff], .d 10] (wOk .dbg [0x04, 0xff, 0xff, 0x02, 0xff]) [.d 10] &&
      s.oracle == List.replicate ((if s.target.debugMode then 1 else 2) + 1 +
        txns [wOk .dbg [0x04, 0xfe, 0xff, 0x01, 0xff], .d 10]) .device ++ [.override (.err .other) took] &&
      (let u : State := { policy with oracle := [.device, .device, .device, .override (.err .unreachable) took] }
       fails u (.xdataRead 0xffff 1 true) .xdata 0xffff 1 false [] (wOk .dbg [0x3a, 0xff, 0xff]) [rOk .dbg [] [0x00]] &&
       u.oracle == List.replicate ((if u.target.debugMode then 1 else 2) + 1 + txns []) .device ++
        [.override (.err .unreachable) took])) := by decide +kernel

theorem witness_AFailedCloseIsReported :
    ([true, false] : List Bool).all (fun took =>
      let i : Instr := .eepromRead 0xffff 1 0x00 true
      let pre : List Event := [wOk .dbg [0x44, 0xff, 0x00, 0x00, 0xff], .d 10]
      let evs : List Event := pre ++ [rOk .dbg [] [0x00]]
      let s := answered [.device, .device, .device, .device, .override (.err .other) took]
      let u : State :=
        { policy with oracle := [.device, .device, .device, .device, .override (.err .unreachable) true, .override (.err .other) took] }
      fails s i .eeprom 0xffff 1 false pre (rOk .dbg [] [0x00]) [] &&
      s.oracle == List.replicate ((if s.target.debugMode then 1 else 2) + 1 + txns evs) .device ++ [.override (.err .other) took] &&
      fails u i .eeprom 0xffff 1 false pre (rOk .dbg [] [0x00]) [] &&
      u.oracle == List.replicate ((if u.target.debugMode then 1 else 2) + 1 + txns pre) .device ++
        [.override (.err .unreachable) true, .override (.err .other) took]) := by decide +kernel

theorem witness_AFailedOpenIsNotClosed :
    let s := answered [.device, .override (.err .other) true]
    s.life = .ready ∧ s.mcu = [] ∧ s.oracle = [.device, .override (.err .other) true] ∧ s.target.Answers ∧ s.debugAutoEnable = false ∧
    HaltDistinct s.cfg ∧ bracketed (.eepromRead 0xffff 1 0xa0 true) = true ∧
    rangeAsked (.eepromRead 0xffff 1 0xa0 true) = some (.eeprom, 0xffff, some 1, false) ∧ InWindow 0xffff 0xffff 1 := by decide +kernel

theorem witness_RoundTripWhileHalted :
    held.ServesDebug false ∧ held.target.mcuHalted = true ∧ held.target.wf ∧ held.target.Answers ∧ held.debugAutoEnable = false ∧
    InWindow 0xffff 0xfffe ([0x01, 0x02] : List Byte).length := by decide +kernel

theorem witness_RoundTripUnderBrackets :
    busy.life = .ready ∧ busy.oracle = [] ∧
    (∀ ws ∈ busy.mcu, ∀ w ∈ ws, ∀ k : Nat, k < 2 → w.1 ≠ BitVec.ofInt 16 (0xfffe + k)) ∧ busy.target.wf ∧
    busy.target.Settled ∧ (busy.target.debugMode = true ∨ busy.debugAutoEnable = true) ∧ HaltDistinct busy.cfg ∧
    InWindow 0xffff 0xfffe 2 := by
  refine ⟨by decide, by decide, fun ws h w hw k hk => ?_, ?_⟩
  · simp [busy] at h; subst h; simp at hw; subst hw; interval_cases k <;> decide
  · and_intros <;> decide +kernel

theorem witness_TheBracketExcludesTheMcu :
    let s : State := { eng dbgOn with mcu := [[(0xffff, 0x55)], [], [], [(0xffff, 0x66)]] }
    s.life = .ready ∧ s.oracle = [] ∧ s.target.Answers ∧ s.debugAutoEnable = false ∧
    xdataReads (.xdataRead 0xffff 1 true) = some (0xffff, 1, true) ∧ HaltDistinct s.cfg ∧ InWindow 0xffff 0xffff 1 ∧
    s.target.mcuHalted = false := by decide +kernel

theorem witness_AHaltedMcuIsIgnored :
    rangeAsked (.xdataRead 0xffff 1 false) ≠ none ∧ bracketed (.xdataRead 0xffff 1 false) = false ∧ held.oracle = [] ∧
    held.target.mcuHalted = true ∧ held.target.Settled ∧ (∀ a v, (Instr.xdataRead 0xffff 1 false) ≠ .ispWrite a v) ∧
    meets (exec (.xdataRead 0xffff 1 false) { held with mcu := [] }) (fun _ => true) := by
  and_intros <;> first | decide +kernel | nofun

theorem witness_IspFrames :
    held.life ≠ .dead ∧ held.Quiet ∧ held.target.wf ∧ held.target.owedWrite = 0 ∧ ¬((0xee : Byte) = 0xee ∧ (0x02 : Byte) = 0x03) := by decide +kernel

theorem witness_HaltFrame :
    held.life ≠ .dead ∧ held.Quiet ∧ held.target.Answers ∧ held.cfg.disable.bytes ≠ [0x80, 0x01] ∧
    { cfg with disable := ⟨0x80, 0x01⟩ }.disable.bytes = [0x80, 0x01] := by decide +kernel

theorem witness_DebugMemoryFrames :
    held.life ≠ .dead ∧ held.Quiet ∧ held.target.wf ∧ held.target.Answers := by decide +kernel

theorem witness_DebugReadFrames :
    let s := eng (dbgOn.setup (.xdata 0xffff) 0)
    s.life ≠ .dead ∧ s.Quiet ∧ s.target.Answers ∧ s.target.readSetup = some (.xdata 0xffff) ∧ s.target.owedRead = 0 := by decide +kernel

theorem witness_DebugModeFrames :
    held.life ≠ .dead ∧ held.Quiet ∧ held.target.owedWrite = 0 ∧ held.target.Answers := by decide +kernel

theorem witness_ASilentDebugInterface :
    (eng ispOn).life ≠ .dead ∧ (eng ispOn).Quiet ∧ (eng ispOn).target.debugMode = false ∧ (eng ispOn).target.Settled := by decide +kernel

end Sys2Proof.Tests
end

section
/-! PROOF. The record of a run: what a request adds to the trace, what it leaves alone, and that a transaction which never returns is
the last thing it does. -/

namespace Sys2Proof.Machine

/-- From `s` to `t` the events `evs` are appended to the trace; no response is given, the latches, the OPEN parameters and the host's
coming acts stay. -/
structure Records (s : State) (evs : List Event) (t : State) : Prop where
  trace : t.trace = s.trace ++ evs
  responses : t.responses = s.responses
  latches : t.latches = s.latches
  cfg : t.cfg = s.cfg
  host : t.host = s.host

/-- A change that shows nowhere in the record. -/
theorem Records.silent {s t : State} (trace : t.trace = s.trace := by rfl) (responses : t.responses = s.responses := by rfl)
    (latches : t.latches = s.latches := by rfl) (cfg : t.cfg = s.cfg := by rfl) (host : t.host = s.host := by rfl) :
    Records s [] t :=
  ⟨by simpa using trace, responses, latches, cfg, host⟩

theorem Records.trans {s t u : State} {evs evs' : List Event} (h : Records s evs t) (h' : Records t evs' u) :
    Records s (evs ++ evs') u where
  trace := by rw [h'.trace, h.trace, List.append_assoc]
  responses := h'.responses.trans h.responses
  latches := h'.latches.trans h.latches
  cfg := h'.cfg.trans h.cfg
  host := h'.host.trans h.host

/-- An event with outcome `hang`: a transaction that never returns (R170). -/
abbrev Event.hangs (e : Event) : Prop := answerOf e = some .hang

@[simp] theorem answerOf_eventOf (x : Txn) (a : Answer) : answerOf (eventOf x a) = some a := by cases x <;> rfl

/-- An operation that returns adds events of which none hangs; one that is lost adds a hang as its last event. -/
def Res.Recorded {α : Type} (s : State) : Res α → Prop
  | .ok _ t => ∃ evs, Records s evs t ∧ ∀ e ∈ evs, ¬e.hangs
  | .raised _ t => ∃ evs, Records s evs t ∧ ∀ e ∈ evs, ¬e.hangs
  | .hung t => ∃ evs e, Records s (evs ++ [e]) t ∧ e.hangs
  | .fault _ => True
  | .refused _ => True

/-- What was recorded before an operation comes first. -/
theorem Res.Recorded.prepend {α : Type} {s t : State} {evs : List Event} {r : Res α} (h : Records s evs t)
    (hn : ∀ e ∈ evs, ¬e.hangs) (hr : r.Recorded t) : r.Recorded s := by
  have returns {u : State} : (∃ es, Records t es u ∧ ∀ e ∈ es, ¬e.hangs) → ∃ es, Records s es u ∧ ∀ e ∈ es, ¬e.hangs := by
    rintro ⟨es, hu, hes⟩
    exact ⟨evs ++ es, h.trans hu, fun e he => (List.mem_append.1 he).elim (hn e) (hes e)⟩
  cases r with
  | ok a u => exact returns hr
  | raised e u => exact returns hr
  | hung u =>
    obtain ⟨es, e, hu, he⟩ := hr
    exact ⟨evs ++ es, e, by simpa using h.trans hu, he⟩
  | fault f => trivial
  | refused q => trivial

/-- A change that shows nowhere in the record, then an operation. -/
theorem Res.Recorded.after_silent {α : Type} {s t : State} {r : Res α} (h : Records s [] t) (hr : r.Recorded t) : r.Recorded s :=
  hr.prepend h (by simp)

theorem State.record_records (s : State) (e : Event) (g : Target) : Records s [e] (s.record e g) := ⟨rfl, rfl, rfl, rfl, rfl⟩

theorem sleep_records (ms : Nat) (s : State) : Records s [.d ms] (sleep ms s) := ⟨rfl, rfl, rfl, rfl, rfl⟩

theorem State.conclude_recorded (s : State) (x : Txn) (a : Answer) (g : Target) : (s.conclude x a g).Recorded s := by
  have h := State.record_records s (eventOf x a) g
  rcases State.conclude_cases s x a g with ⟨rs, rfl, e⟩ | ⟨k, rfl, e⟩ | ⟨rfl, e⟩ <;> rw [e]
  · exact ⟨_, h, by simp⟩
  · exact ⟨_, h, by simp⟩
  · exact ⟨[], eventOf x .hang, ⟨h.trace, h.responses, h.latches, h.cfg, h.host⟩, answerOf_eventOf x .hang⟩

theorem transact_recorded (x : Txn) (s : State) : (transact x s).Recorded s := by
  have h : Records s [] s.mcuActs.dropFate := .silent
  refine .after_silent h ?_
  rw [transact_eq]
  unfold transactAs
  split
  · exact State.conclude_recorded _ _ _ _
  · split
    · exact State.conclude_recorded _ _ _ _
    · trivial
  · split
    · exact State.conclude_recorded _ _ _ _
    · trivial

/-- The program writes the engine's own state in ways that show nowhere in the record. -/
def Prog.WritesSilently {α : Type} : Prog α → Prop
  | .ret _ => True
  | .throw _ => True
  | .fault _ => True
  | .bus _ r => ∀ o, (r o).WritesSilently
  | .sleep _ r => r.WritesSilently
  | .get r => ∀ s, (r s).WritesSilently
  | .set f r => (∀ s, Records s [] (f s)) ∧ r.WritesSilently

/-- The record of such a program is made of its primitives, of which a hang is the last. -/
theorem Prog.WritesSilently.run {α : Type} {p : Prog α} (h : p.WritesSilently) (s : State) : (p.run s).Recorded s := by
  induction p generalizing s with
  | ret a => exact ⟨[], .silent, by simp⟩
  | throw e => exact ⟨[], .silent, by simp⟩
  | fault f => trivial
  | bus x r ih =>
    have hx := transact_recorded x s
    rw [Prog.run_bus]
    cases e : transact x s <;> rw [e] at hx
    case ok rs t =>
      obtain ⟨evs, ht, hn⟩ := hx
      exact (ih _ (h _) t).prepend ht hn
    case raised er t =>
      obtain ⟨evs, ht, hn⟩ := hx
      exact (ih _ (h _) t).prepend ht hn
    case hung t => exact hx
    all_goals trivial
  | sleep ms r ih => exact (ih h _).prepend (sleep_records ms s) (by simp [answerOf])
  | get r ih => exact ih s (h s) s
  | set f r ih => exact (ih h.2 _).after_silent (h.1 s)

namespace Prog.WritesSilently

variable {α β : Type}

theorem bind {p : Prog α} {k : α → Prog β} (hp : p.WritesSilently) (hk : ∀ a, (k a).WritesSilently) :
    (p.bind k).WritesSilently := by
  induction p with
  | ret a => exact hk a
  | throw e => trivial
  | fault f => trivial
  | bus x r ih => exact fun o => ih o (hp o)
  | sleep ms r ih => exact ih hp
  | get r ih => exact fun s => ih s (hp s)
  | set f r ih => exact ⟨hp.1, ih hp.2⟩

theorem attempt {p : Prog α} (hp : p.WritesSilently) : p.attempt.WritesSilently := by
  induction p with
  | ret a => trivial
  | throw e => trivial
  | fault f => trivial
  | bus x r ih => exact fun o => ih o (hp o)
  | sleep ms r ih => exact ih hp
  | get r ih => exact fun s => ih s (hp s)
  | set f r ih => exact ⟨hp.1, ih hp.2⟩

theorem ite {c : Prop} [Decidable c] {p q : Prog α} (hp : p.WritesSilently) (hq : q.WritesSilently) :
    (if c then p else q).WritesSilently := by
  split
  · exact hp
  · exact hq

theorem ret (a : α) : (Prog.ret a).WritesSilently := trivial

theorem throw (e : Err) : (Prog.throw e : Prog α).WritesSilently := trivial

theorem get {r : State → Prog α} (h : ∀ s, (r s).WritesSilently) : (Prog.get r).WritesSilently := h

theorem bus (x : Txn) : (Machine.bus x).WritesSilently := fun o => by cases o <;> trivial

theorem delay (ms : Nat) : (Machine.delay ms).WritesSilently := trivial

theorem assign (f : State → State) (h : ∀ s, Records s [] (f s) := by exact fun _ => .silent) :
    (Machine.assign f).WritesSilently := ⟨h, trivial⟩

/-! The mode gate (41_mode_gate.md). -/

theorem queryIspEnabled : Machine.queryIspEnabled.WritesSilently := (bus _).bind fun _ => ret _

theorem setIspEnabled (on force : Bool) : (Machine.setIspEnabled on force).WritesSilently :=
  have write := (bus (txIspCtrl on)).bind fun _ => ret ()
  ite write (queryIspEnabled.bind fun _ => ite (ret _) write)

theorem queryDebugEnabled : Machine.queryDebugEnabled.WritesSilently := fun o => by
  dsimp only
  split <;> trivial

theorem setDebugEnabled (on force : Bool) : (Machine.setDebugEnabled on force).WritesSilently :=
  have write := get fun s : State => ite (c := !on && s.haltedFlag) (throw (.invalidState .disableWhileHalted))
    ((delay tMode).bind fun _ => (bus (txDebug on s.cfg)).bind fun _ => delay tMode)
  ite write (queryDebugEnabled.bind fun _ => ite (ret _) write)

theorem debugGuardEnter : Machine.debugGuardEnter.WritesSilently :=
  (assign _).bind fun _ _ =>
    ite ((assign _).bind fun _ => setDebugEnabled true false)
      (queryDebugEnabled.bind fun _ => ite (ret _) (throw _))

theorem debugGuardExit : Machine.debugGuardExit.WritesSilently := fun _ => ite (setDebugEnabled false false) (ret _)

theorem ispGuard : Machine.ispGuard.WritesSilently := queryIspEnabled.bind fun _ => ite (ret _) (throw _)

/-! The transfers (R138 to R152). -/

theorem settleUnlessHalt (halt : Bool) : (Machine.settleUnlessHalt halt).WritesSilently := ite (ret _) (delay _)

theorem readXfer (p : Plan) (a : Int) : (Machine.readXfer p a).WritesSilently := by
  have data : ((Machine.bus txDbgData).bind fun rs => .ret (rs.headD 0)).WritesSilently := (bus _).bind fun _ => ret _
  unfold Machine.readXfer
  split
  · exact (bus _).bind fun _ => (bus _).bind fun _ => ret _
  · exact (bus _).bind fun _ => (settleUnlessHalt _).bind fun _ => data
  · exact (bus _).bind fun _ => (delay _).bind fun _ => (settleUnlessHalt _).bind fun _ => data

theorem writeXfer (p : Plan) (a : Int) (v : Byte) : (Machine.writeXfer p a v).WritesSilently := by
  unfold Machine.writeXfer
  split
  · exact (bus _).bind fun _ => ret _
  · exact (bus _).bind fun _ => settleUnlessHalt _
  · exact (bus _).bind fun _ => (delay _).bind fun _ => settleUnlessHalt _

/-! The range operation (R125) and `haltMcu` (R131). -/

theorem haltCtl (on : Bool) : (Machine.haltCtl on).WritesSilently :=
  (bus _).bind fun _ => (assign _).bind fun _ => delay _

theorem advance (p : Plan) : p.advance.WritesSilently := assign _

theorem gate (p : Plan) : p.gate.WritesSilently := by
  unfold Plan.gate
  split
  · exact ispGuard
  · exact debugGuardEnter
  · exact debugGuardEnter

theorem check (p : Plan) : p.check.WritesSilently := by
  refine ite (throw _) ?_
  split <;> trivial

theorem haltOpen (p : Plan) : p.haltOpen.WritesSilently :=
  ite ((haltCtl true).bind fun _ => (assign _).bind fun _ => advance p) (ret _)

theorem transfer (p : Plan) (i : Nat) : (p.transfer i).WritesSilently :=
  ite (writeXfer p _ _) ((readXfer p _).bind fun _ => assign _)

theorem transfers (p : Plan) (k i : Nat) : (p.transfers k i).WritesSilently := by
  induction k generalizing i with
  | zero => trivial
  | succ k ih => exact (transfer p i).bind fun _ => (advance p).bind fun _ => ih (i + 1)

theorem haltClose (p : Plan) : p.haltClose.WritesSilently :=
  (assign _).bind fun _ => (haltCtl false).bind fun _ => (advance p).bind fun _ s => by
    dsimp only
    split <;> trivial

theorem close (p : Plan) {body : Prog Unit} (h : body.WritesSilently) : (p.close body).WritesSilently :=
  h.attempt.bind fun o => by
    cases o with
    | ok _ => exact fun _ => ite (haltClose p) (ret _)
    | error e =>
      exact fun _ => ite ((assign _).bind fun _ => haltClose p)
        ((assign _).bind fun _ => throw _)

theorem exit (p : Plan) : p.exit.WritesSilently := by
  unfold Plan.exit
  split
  · trivial
  · exact debugGuardExit
  · exact debugGuardExit

theorem program (p : Plan) : p.program.WritesSilently :=
  (advance p).bind fun _ => (gate p).bind fun _ => (advance p).bind fun _ => (check p).bind fun _ =>
  (advance p).bind fun _ => (haltOpen p).bind fun _ => (close p (transfers p _ _)).bind fun _ => (exit p).bind fun _ _ => ret _

theorem haltMcu (on : Bool) : (Machine.haltMcu on).WritesSilently :=
  have place (ph : State → Phase) : (atPhase ph).WritesSilently := assign _
  (place _).bind fun _ => debugGuardEnter.bind fun _ => (place _).bind fun _ => (haltCtl on).bind fun _ =>
  (place _).bind fun _ => debugGuardExit.bind fun _ => ret _

/-! The requests. -/

theorem withLatches {k : Latches → Prog Result} (h : ∀ q, (k q).WritesSilently) : (Machine.withLatches k).WritesSilently :=
  fun s => by
    dsimp only
    split
    · exact h _
    · trivial

theorem rangeOp : Machine.rangeOp.WritesSilently := withLatches fun q => by
  split
  · exact program _
  · trivial

/-- Every request's program writes silently: it appends to the trace through its primitives alone. -/
theorem programOf (o : Op) : (Machine.programOf o).WritesSilently := by
  cases o
  case ispEnabled => exact queryIspEnabled.bind fun _ => ret _
  case ispSetEnabled => exact withLatches fun _ => (setIspEnabled _ _).bind fun _ => ret _
  case dbgEnabled => exact queryDebugEnabled.bind fun _ => ret _
  case dbgSetEnabled => exact withLatches fun _ => (setDebugEnabled _ _).bind fun _ => ret _
  case dbgSetAuto => exact withLatches fun _ => (assign _).bind fun _ => ret _
  case ispReset => exact (setIspEnabled _ _).bind fun _ => (bus _).bind fun _ => ret _
  case dbgHalt => exact withLatches fun _ => haltMcu _
  all_goals exact rangeOp

end Prog.WritesSilently

end Sys2Proof.Machine
end

section
/-! PROOF. The cached halted flag along the trace (R21, R126). -/

namespace Sys2Proof.Machine

/-- An event that is no successful halt control leaves the flag. -/
theorem flagAfter_cons_of_ne (f : Bool) {e : Event} (es : List Event) (halt : ∀ rs, e ≠ .w .dbg [0x80, 0x01] (.ok rs))
    (run : ∀ rs, e ≠ .w .dbg [0x80, 0x00] (.ok rs)) : flagAfter f (e :: es) = flagAfter f es :=
  flagAfter.eq_4 f e es halt run

/-- The flag is followed event by event. -/
theorem flagAfter_append (f : Bool) (es es' : List Event) : flagAfter f (es ++ es') = flagAfter (flagAfter f es) es' := by
  induction f, es using flagAfter.induct with
  | case1 f => rfl
  | case2 f rs es ih => exact ih
  | case3 f rs es ih => exact ih
  | case4 f e es halt run ih =>
    rw [flagAfter_cons_of_ne f es halt run, List.cons_append, flagAfter_cons_of_ne f (es ++ es') halt run, ih]

/-- A transaction that is no halt-control frame leaves the flag. -/
theorem flagAfter_eventOf (f : Bool) {x : Txn} (hx : ∀ on, x ≠ txHalt on) (a : Answer) : flagAfter f [eventOf x a] = f := by
  have other (on : Bool) (rs : List Byte) : eventOf x a ≠ eventOf (txHalt on) (.ok rs) := by
    intro h
    cases x with
    | w d bs => exact hx on (by cases h; rfl)
    | wr d ws n => cases h
  exact flagAfter_cons_of_ne f [] (other true) (other false)

/-- A halt-control frame sets the flag where it succeeds, and leaves it otherwise. -/
theorem flagAfter_halt (f on : Bool) (a : Answer) : flagAfter f [eventOf (txHalt on) a] =
    match a with
    | .ok _ => on
    | .err _ => f
    | .hang => f := by
  cases on <;> cases a <;> rfl

/-- The frames besides halt control and the disable sequence differ from halt control in device, kind or length (R76). -/
theorem PlainFrame.ne_txHalt {p : Params} {x : Txn} (h : PlainFrame p x) (on : Bool) : x ≠ txHalt on := by
  cases h <;> nofun

/-- Nor is the disable sequence a halt-control frame, by the statement's premise (R87). -/
theorem HaltDistinct.ne_txHalt {p : Params} (h : HaltDistinct p) (on : Bool) : txDbgDis p ≠ txHalt on := by
  intro e
  cases on with
  | true => exact h.1 (Txn.w.inj e).2
  | false => exact h.2 (Txn.w.inj e).2

/-- From `s` to `t` the flag went as the events between say. -/
def FlagFollows (s t : State) : Prop :=
  t.cfg = s.cfg ∧ ∃ evs, t.trace = s.trace ++ evs ∧ (HaltDistinct s.cfg → t.haltedFlag = flagAfter s.haltedFlag evs)

theorem FlagFollows.of_eq {s t : State} (cfg : t.cfg = s.cfg) (trace : t.trace = s.trace) (flag : t.haltedFlag = s.haltedFlag) :
    FlagFollows s t := ⟨cfg, [], by simpa using trace, fun _ => flag⟩

theorem FlagFollows.trans {s t u : State} (h : FlagFollows s t) (h' : FlagFollows t u) : FlagFollows s u := by
  obtain ⟨hc, es, ht, hf⟩ := h
  obtain ⟨hc', es', ht', hf'⟩ := h'
  refine ⟨hc'.trans hc, es ++ es', by rw [ht', ht, List.append_assoc], fun hd => ?_⟩
  rw [hf' (hc ▸ hd), hf hd, flagAfter_append]

/-- A frame that is no halt control leaves the flag. -/
theorem transact_flagFollows {x : Txn} {s : State} (hl : Txn.listed s.cfg x = true) (hx : HaltDistinct s.cfg → ∀ on, x ≠ txHalt on) :
    (transact x s).Ends (FlagFollows s) :=
  transact_ends x s hl fun a _ _ =>
    have h (hd : HaltDistinct s.cfg) : s.haltedFlag = flagAfter s.haltedFlag [eventOf x a] := (flagAfter_eventOf _ (hx hd) a).symm
    ⟨⟨rfl, [eventOf x a], rfl, h⟩, fun _ => ⟨rfl, [eventOf x a], rfl, h⟩⟩

theorem sleep_flagFollows (ms : Nat) (s : State) : FlagFollows s (sleep ms s) := ⟨rfl, [.d ms], rfl, fun _ => rfl⟩

/-- Halt control writes the flag once its frame has succeeded (R126). -/
theorem haltCtl_flagFollows (on : Bool) (s : State) : ((haltCtl on).run s).Ends (FlagFollows s) := by
  obtain ⟨a, g, e, -⟩ := transact_cases (txHalt on) s (listed_txHalt _ on)
  rw [haltCtl_run, e]
  have hf := flagAfter_halt s.haltedFlag on (outcomeOf (txHalt on) a)
  rcases State.conclude_cases s.mcuActs.dropFate (txHalt on) (outcomeOf (txHalt on) a) g with
    ⟨rs, ha, e⟩ | ⟨k, ha, e⟩ | ⟨ha, e⟩ <;> rw [e] <;> rw [ha] at hf ⊢
  · have hset : FlagFollows s ((s.mcuActs.dropFate.record (eventOf (txHalt on) (.ok rs)) g).setHalted on) :=
      ⟨rfl, [_], rfl, fun _ => hf.symm⟩
    exact hset.trans (sleep_flagFollows tHalt _)
  · exact ⟨rfl, [_], rfl, fun _ => hf.symm⟩
  · exact ⟨rfl, [_], rfl, fun _ => hf.symm⟩

/-- Every primitive of the engine keeps the flag in step with the trace. -/
theorem flagFollows_closed : Closed FlagFollows where
  refl _ := .of_eq rfl rfl rfl
  trans := .trans
  keep h := .of_eq h.cfg h.trace h.haltedFlag
  plain _ _ h := transact_flagFollows h.listed fun _ => h.ne_txHalt
  halt := haltCtl_flagFollows
  disable _ _ := transact_flagFollows (listed_txDbgDis _) HaltDistinct.ne_txHalt
  sleep := sleep_flagFollows

end Sys2Proof.Machine
end

section
/-! PROOF. The statements about the state: what a block accepts, how it answers, and its reset (10_state.md). -/

namespace Sys2Proof.Machine

/-- A host request loads latches (R26). -/
theorem latchesOf_request {i : Instr} (h : isRequest i = true) : ∃ q, latchesOf i = some q := by
  cases i <;> cases h <;> exact ⟨_, rfl⟩

/-- An instruction is a host request or one transaction (R76, R90). -/
theorem exec_frame {i : Instr} (h : isRequest i = false) (s : State) : ∃ x, exec i s = issue x s := by
  cases i <;> cases h <;> exact ⟨_, rfl⟩

/-- A block left by a hang is Busy for ever (R170). -/
theorem step_busy {s : State} (h : s.life = .busy) : step s = .fault .stuck := by
  simp only [step, h]

/-- A well-formed request is fetched decoded, that act of the host being done. -/
theorem fetch_request {s : State} {r : Request} {rest : List HostAct} {i : Instr} (hh : s.host = .request r :: rest)
    (hd : decodeRequest r = .instr i) : fetch s = .instr i { s with host := rest } := by
  simp only [fetch, hh, decode, hd, State.actDone, List.tail_cons]

/-- Settles O8. -/
theorem stepRunsTheDecodedRequest : Obligations.StepRunsTheDecodedRequest := by
  unfold Obligations.StepRunsTheDecodedRequest
  intro s r rest i hl hh hd
  simp only [step, hl, fetch_request hh hd]

/-- Settles O9. -/
theorem resetState : Obligations.ResetState := by
  unfold Obligations.ResetState
  and_intros <;> rfl

/-- Settles O11: a request is refused by its acceptance, a frame by its issue, an act of the host by the step. -/
theorem onlyAReadyBlockAccepts : Obligations.OnlyAReadyBlockAccepts := by
  unfold Obligations.OnlyAReadyBlockAccepts
  intro i s
  have request (hi : isRequest i = true) (hl : s.life ≠ .ready) : exec i s = .refused (.notReady s.life) := by
    obtain ⟨q, hq⟩ := latchesOf_request hi
    rw [exec_request hq, if_neg hl]
  refine ⟨request, fun hl => ?_, fun hl a rest hh => ?_⟩
  · cases hi : isRequest i with
    | true => rw [request hi (by simp [hl]), hl]
    | false =>
      obtain ⟨x, hx⟩ := exec_frame hi s
      rw [hx, issue, if_pos hl, hl]
  · simp only [step, hl, hh]

/-- Settles O16: no memory lists a byte, and the reset state holds nothing of a request. -/
theorem resetMeetsTheInvariant : Obligations.ResetMeetsTheInvariant := by
  unfold Obligations.ResetMeetsTheInvariant
  have empty (n : Nat) : Memory.wf [] ∧ Memory.below [] n := ⟨⟨.nil, by simp⟩, by simp⟩
  exact ⟨⟨empty _, empty _, empty _⟩, fun _ => ⟨rfl, rfl, rfl, rfl, rfl⟩⟩

/-- Settles O13: the request's program ends (`busy_closed.request`), and its record says how (`Prog.WritesSilently.run`). -/
theorem everyRequestIsAnsweredOnce : Obligations.EveryRequestIsAnsweredOnce := by
  unfold Obligations.EveryRequestIsAnsweredOnce
  intro i s hi hl
  obtain ⟨q, hq⟩ := latchesOf_request hi
  have ends := busy_closed.request hq (fun _ _ _ h => h) s
  have recorded := (Prog.WritesSilently.programOf q.op).run (s.accept q)
  rw [exec_request hq, if_pos hl, hq]
  cases e : (programOf q.op).run (s.accept q) <;> rw [e] at ends recorded
  case ok r t =>
    obtain ⟨evs, h, hn⟩ := recorded
    exact ⟨_, evs, rfl, h.trace, h.latches, h.cfg, h.host,
      .inl ⟨rfl, rfl, rfl, rfl, rfl, rfl, ⟨.ok r, by simp [h.responses]⟩, hn⟩⟩
  case raised er t =>
    obtain ⟨evs, h, hn⟩ := recorded
    exact ⟨_, evs, rfl, h.trace, h.latches, h.cfg, h.host,
      .inl ⟨rfl, rfl, rfl, rfl, rfl, rfl, ⟨.error er, by simp [h.responses]⟩, hn⟩⟩
  case hung t =>
    obtain ⟨evs, ev, h, hv⟩ := recorded
    exact ⟨t, evs ++ [ev], rfl, h.trace, h.latches, h.cfg, h.host,
      .inr ⟨ends rfl, h.responses, step_busy (ends rfl), ev, by simp, hv⟩⟩
  case fault f => exact ends.elim
  case refused r => exact ends.elim

/-- Settles O17: halt control alone writes the flag, by the induction over the engine (`Closed.request`). -/
theorem haltedFlagFollowsHaltControl : Obligations.HaltedFlagFollowsHaltControl := by
  unfold Obligations.HaltedFlagFollowsHaltControl
  intro i s t evs hd hi hx ht
  obtain ⟨q, hq⟩ := latchesOf_request hi
  rw [exec_request hq] at hx
  split at hx
  case isFalse => cases hx
  have ends := flagFollows_closed.request hq (fun _ _ _ => .of_eq rfl rfl rfl) s
  have follows : FlagFollows s t := by
    cases e : (programOf q.op).run (s.accept q) <;> rw [e] at ends hx <;> cases hx <;> exact ends
  obtain ⟨-, evs', ht', hf⟩ := follows
  rw [hf hd, List.append_cancel_left (ht'.symm.trans ht)]

end Sys2Proof.Machine
end
section
/-! PROOF. A bus frame as an instruction on the reference device (R66 to R72, log 19). -/

namespace Sys2Proof.Machine

/-- The outcome of an issued frame is its event: the engine goes on after a success. -/
theorem issue_ok {x : Txn} {s t : State} {rs : List Byte} (hl : s.life ≠ .dead) (h : transact x s = .ok rs t) :
    issue x s = .next t := by
  rw [issue, if_neg hl, h]

/-- And after a failure. -/
theorem issue_raised {x : Txn} {s t : State} {e : Err} (hl : s.life ≠ .dead) (h : transact x s = .raised e t) :
    issue x s = .next t := by
  rw [issue, if_neg hl, h]

theorem Target.SameCore.modes {g t : Target} (h : g.SameCore t) : g.Modes t.debugMode t.mcuHalted t.ispPtr :=
  ⟨h.debugMode, h.mcuHalted, h.ispPtr⟩

/-- Where the disable sequence has the bytes of a halt command, the frame is the disable sequence (log 30). -/
theorem txHalt_of_coinciding {p : Params} {on : Bool} (h : p.disable.bytes = [0x80, if on then 0x01 else 0x00]) :
    txHalt on = txDbgDis p := by
  rw [txHalt, txDbgDis, h]
  cases on <;> rfl

/-- A register write stores its byte and moves the pointer there (R66). -/
theorem Target.ispWritten_stores {t : Target} (h : t.wf) (a v : Byte) :
    ({ t with ispPtr := a }.poke (.isp a) v).Stores t (.isp a) v ∧
    ({ t with ispPtr := a }.poke (.isp a) v).Modes t.debugMode t.mcuHalted a := by
  refine ⟨⟨Target.peek_poke_same _ _ _ h, fun x hx => ?_⟩, rfl, rfl, rfl⟩
  rw [Target.peek_poke_other _ _ _ _ hx]
  cases x <;> rfl

/-- A debug write stores its byte (R70, R72). -/
theorem Target.store_stores {t : Target} (h : t.wf) (l : Loc) (v : Byte) (ms : Nat) :
    (t.store l v ms).Stores t l v ∧ (t.store l v ms).Modes t.debugMode t.mcuHalted t.ispPtr := by
  have peek (x : Loc) : (t.store l v ms).peek x = (t.poke l v).peek x := by cases x <;> rfl
  refine ⟨⟨by rw [peek, Target.peek_poke_same _ _ _ h], fun x hx => by rw [peek, Target.peek_poke_other _ _ _ _ hx]⟩, ?_⟩
  exact ⟨by simp, by simp, by simp⟩

/-- Settles O55: one equation of the reference device per frame (Laws/Quiet). -/
theorem ispFrames : Obligations.IspFrames := by
  unfold Obligations.IspFrames
  intro s a v on hl h hwf hw
  have not_reset : ¬((0x6f : Byte) = 0xee ∧ (if on then (0x80 : Byte) else 0x00) = 0x03) := by rintro ⟨h, -⟩; cases h
  have write {a v : Byte} (hr : ¬(a = 0xee ∧ v = 0x03)) : ∃ g, exec (.fIspWr a v) s = .next (s.after [wOk .isp [a, v]] g) ∧
      g.Stores s.target (.isp a) v ∧ g.Modes s.target.debugMode s.target.mcuHalted a :=
    ⟨_, issue_ok hl (h.ispWr hw hr), Target.ispWritten_stores hwf a v⟩
  exact ⟨issue_ok hl (h.ispPtr hw a), issue_ok hl (h.ispData hw), issue_ok hl (h.ispData hw), issue_ok hl (h.ispQuery hw),
    write, write not_reset, rfl, ⟨_, issue_ok hl (h.ispReset hw)⟩, rfl⟩

/-- Settles O56: a halt command, or the disable sequence where the two coincide (`txHalt_of_coinciding`). -/
theorem haltFrame : Obligations.HaltFrame := by
  unfold Obligations.HaltFrame
  intro s on hl h ha
  by_cases hd : s.cfg.disable.bytes = [0x80, if on then 0x01 else 0x00]
  · have run := h.dbgDis ha
    rw [← txHalt_of_coinciding hd, hd] at run
    exact ⟨_, issue_ok hl run, fun x => by cases x <;> rfl, absurd hd, fun _ => ⟨rfl, rfl, rfl⟩⟩
  · exact ⟨_, issue_ok hl (h.dbgHalt ha on hd), fun x => by cases x <;> rfl, fun _ => ⟨ha.1, rfl, rfl⟩, (absurd · hd)⟩

/-- Settles O57: a setup stores nothing, a write stores one byte (`Target.store_stores`). -/
theorem debugMemoryFrames : Obligations.DebugMemoryFrames := by
  unfold Obligations.DebugMemoryFrames
  intro s a c v hl h hwf ha
  have modes {g : Target} (hg : g.Modes s.target.debugMode s.target.mcuHalted s.target.ispPtr) :
      g.Modes true s.target.mcuHalted s.target.ispPtr := ha.1 ▸ hg
  have write (l : Loc) (ms : Nat) := s.target.store_stores hwf l v ms
  exact ⟨⟨_, issue_ok hl (h.xdataRd ha a), fun x => s.target.setup_peek _ _ x, modes ⟨rfl, rfl, rfl⟩, rfl⟩,
    ⟨_, issue_ok hl (h.xdataWr ha a v), (write _ _).1, modes (write _ _).2⟩,
    ⟨_, issue_ok hl (h.eeRd ha a c), fun x => s.target.setup_peek _ _ x, modes ⟨rfl, rfl, rfl⟩, rfl⟩,
    ⟨_, issue_ok hl (h.eeWr ha a c v), (write _ _).1, modes (write _ _).2⟩⟩

/-- A data read and a probe are the same frame (R83): some byte, of the location set up where the read is compliant. -/
theorem State.Quiet.dbgByte {s : State} (h : s.Quiet) (ha : s.target.Answers) :
    ∃ b g, transact txDbgData s = .ok [b] (s.after [rOk .dbg [] [b]] g) ∧ g.SameCore s.target ∧
      ∀ l, s.target.readSetup = some l → s.target.owedRead = 0 → b = s.target.peek l := by
  obtain ⟨b, g, run, hg⟩ := h.dbgProbe ha
  refine ⟨b, g, run, hg, fun l hl ho => ?_⟩
  have read : Res.ok [b] _ = Res.ok [s.target.peek l] _ := run.symm.trans (h.dbgData ha hl ho)
  simpa using (Res.ok.inj read).1

/-- Settles O58: the byte of a compliant read, right after a setup where the MCU is halted and 10 ms later where it runs. -/
theorem debugReadFrames : Obligations.DebugReadFrames := by
  unfold Obligations.DebugReadFrames
  intro s a hl h ha
  obtain ⟨b, g, run, hg, hb⟩ := h.dbgByte ha
  refine ⟨⟨b, g, issue_ok hl run, issue_ok hl run, hg.peek, ha.1 ▸ hg.modes, hb⟩, ?_⟩
  have setup := h.xdataRd ha a
  cases hm : s.target.mcuHalted <;> rw [hm] at setup
  case true =>
    obtain ⟨g, read, -⟩ := h.dataAfterSetup ha (.xdata a) 0 0 le_rfl [wOk .dbg [0x3a, lo8 a, hi8 a]]
    exact ⟨_, _, issue_ok hl setup, issue_ok hl read, by simp⟩
  case false =>
    obtain ⟨g, read, -⟩ := h.dataAfterSetup ha (.xdata a) 10 10 le_rfl ([wOk .dbg [0x3a, lo8 a, hi8 a]] ++ [.d 10])
    rw [← h.sleepAfter 10 _ (s.target.setup _ _) rfl] at read
    exact ⟨_, _, issue_ok hl setup, issue_ok hl read, by simp⟩

/-- Settles O59. -/
theorem debugModeFrames : Obligations.DebugModeFrames := by
  unfold Obligations.DebugModeFrames
  intro s hl h
  exact ⟨fun hw => ⟨_, issue_ok hl (h.dbgEn hw), fun x => by cases x <;> rfl, rfl, rfl, rfl⟩,
    fun ha => ⟨_, issue_ok hl (h.dbgDis ha), fun x => by cases x <;> rfl, rfl, rfl, rfl⟩⟩

/-- Settles O60: no frame to the debug interface is answered while debug mode is off (`State.Quiet.silent`). -/
theorem aSilentDebugInterface : Obligations.ASilentDebugInterface := by
  unfold Obligations.ASilentDebugInterface
  intro s on a c v hl h hd ho
  have write (bs : List Byte) := issue_raised hl (h.silent hd ho (t := .w .dbg bs) (.inl ⟨_, rfl⟩))
  have read (ws : List Byte) (n : Nat) := issue_raised hl (h.silent hd ho (t := .wr .dbg ws n) (.inr ⟨_, _, rfl⟩))
  exact ⟨⟨_, write _, rfl⟩, ⟨_, write _, rfl⟩, ⟨_, write _, rfl⟩, ⟨_, write _, rfl⟩, ⟨_, write _, rfl⟩, ⟨_, read _ _, rfl⟩,
    ⟨_, read _ _, rfl⟩, ⟨_, write _, rfl⟩⟩

/-! ISP mode switched on and queried, whatever the last debug write still owes (R71). -/

/-- A transaction the reference device answers with success, the MCU writing nothing. -/
theorem transact_answered {x : Txn} {s : State} {rs : List Byte} {g : Target} (ho : s.oracle = []) (hm : s.mcu = [])
    (ha : s.target.answer s.cfg x = some (.ok rs, g)) (hr : outcomeOf x (.ok rs) = .ok rs) :
    transact x s = .ok rs (s.after [eventOf x (.ok rs)] g) := by
  rw [transact_quiet ho hm ha, hr]
  simp [State.conclude, State.record, State.after, hm]

/-- No debug write has to settle: there is none, or its delay has passed. -/
abbrev Target.NoneOwed (t : Target) : Prop := t.lastWrite = none ∨ t.owedWrite = 0

theorem Target.NoneOwed.unsettle {t : Target} (h : t.NoneOwed) : t.unsettle = t := by
  rcases h with h | h
  · simp only [Target.unsettle, h]
  · exact t.unsettle_settled h

/-- After one frame no debug write has to settle. -/
theorem Target.unsettle_noneOwed (t : Target) : t.unsettle.NoneOwed := by
  unfold Target.unsettle Target.NoneOwed
  split
  · split
    · exact .inr rfl
    · exact .inr (by omega)
  · exact .inl ‹_›

section isp
variable {s : State} (ho : s.oracle = []) (hm : s.mcu = [])
include ho hm

/-- The ISP query finds what the write still owed has left. -/
theorem queryIspEnabled_unsettled : queryIspEnabled.run s = .ok ((s.target.unsettle.peek (.isp 0x6f)).getLsbD 7)
    (s.after [rOk .isp [0x6f] [s.target.unsettle.peek (.isp 0x6f)]] { s.target.unsettle with ispPtr := 0x6f }) := by
  rw [queryIspEnabled_run, transact_answered ho hm (x := txIspQuery) rfl rfl]
  rfl

/-- The control write turns ISP mode on, and no debug write has to settle after it. -/
theorem ispCtrl_on (hwf : s.target.wf) : ∃ evs g, transact (txIspCtrl true) s = .ok [] (s.after evs g) ∧ g.NoneOwed ∧ g.IspOn := by
  refine ⟨_, _, transact_answered ho hm (x := txIspCtrl true) rfl rfl, s.target.unsettle_noneOwed, ?_⟩
  have written : ({ s.target.unsettle with ispPtr := 0x6f }.poke (.isp 0x6f) 0x80).peek (.isp 0x6f) = 0x80 :=
    Target.peek_poke_same _ _ _ (s.target.unsettle_wf hwf)
  exact (congrArg (BitVec.getLsbD · 7) written).trans rfl

theorem setIspEnabled_on (hwf : s.target.wf) (force : Bool) : ∃ evs g,
    (setIspEnabled true force).run s = .ok () (s.after evs g) ∧ g.NoneOwed ∧ g.IspOn := by
  rw [setIspEnabled_run]
  cases force with
  | true =>
    obtain ⟨evs, g, run, hg⟩ := ispCtrl_on ho hm hwf
    exact ⟨evs, g, by rw [if_pos rfl, run, Res.bind_ok], hg⟩
  | false =>
    rw [if_neg (by simp), queryIspEnabled_unsettled ho hm, Res.bind_ok]
    split
    · next on => exact ⟨_, _, rfl, s.target.unsettle_noneOwed, on⟩
    · have hwf' : { s.target.unsettle with ispPtr := 0x6f }.wf := s.target.unsettle_wf hwf
      obtain ⟨evs, g, run, hg⟩ := ispCtrl_on (s := s.after _ _) ho (by simp [hm]) hwf'
      exact ⟨_, g, by rw [run, Res.bind_ok, State.after_after], hg⟩
end isp

theorem exec_ispSetEnabled (on force : Bool) {s : State} (hl : s.life = .ready) : exec (.ispSetEnabled on force) s =
    (((setIspEnabled on force).run (s.accept { op := .ispSetEnabled, on := on, force := force })).bind
      fun _ s => .ok .void s).finish := by
  rw [exec_request rfl, if_pos hl]
  exact congrArg Res.finish ((withLatches_run _ rfl).trans (Prog.run_bind ..))

/-- `isp.enabled` answers the top bit of the register, as the write still owed has left it. -/
theorem exec_ispEnabled {s : State} (hl : s.life = .ready) (ho : s.oracle = []) (hm : s.mcu = []) :
    ∃ t, exec .ispEnabled s = .next t ∧
      t.responses = s.responses ++ [.ok (.flag ((s.target.unsettle.peek (.isp 0x6f)).getLsbD 7))] := by
  have run : (programOf .ispEnabled).run (s.accept { op := .ispEnabled }) = _ := Prog.run_bind ..
  rw [queryIspEnabled_unsettled (s := s.accept _) ho hm] at run
  exact ⟨_, by rw [exec_request rfl, if_pos hl, run]; rfl, rfl⟩

/-- Settles O27: the register's top bit is on after the request (`setIspEnabled_on`), and the query finds it. -/
theorem enabledAfterEnabling : Obligations.EnabledAfterEnabling := by
  unfold Obligations.EnabledAfterEnabling
  intro s force hs hwf
  obtain ⟨hl, ho, hm⟩ := hs
  obtain ⟨evs, g, enabling, owed, on⟩ := setIspEnabled_on
    (s := s.accept { op := .ispSetEnabled, on := true, force := force }) ho hm hwf force
  have enabled := exec_ispSetEnabled true force hl
  rw [enabling] at enabled
  obtain ⟨t, queried, response⟩ := exec_ispEnabled
    (s := ((s.accept { op := .ispSetEnabled, on := true, force := force }).after evs g).respond (.ok .void))
    rfl ho (by simp [hm])
  have flag : (g.unsettle.peek (.isp 0x6f)).getLsbD 7 = true := by rw [owed.unsettle]; exact on
  refine ⟨_, t, enabled, queried, ?_⟩
  rw [response, State.respond_target, State.after_target, flag, State.respond_responses, List.append_assoc]
  rfl

end Sys2Proof.Machine
end

section
/-! PROOF. The MCU beside a run (R73): it takes one turn before each event, and what the engine's frames do to the target they do after
these turns. -/

namespace Sys2Proof.Machine

/-- Some turns of the MCU, one after the other. -/
def Target.turns (t : Target) (l : List (List (Addr16 × Byte))) : Target := l.foldl Target.mcuTurn t

/-- The target after the MCU's turns before the next `n` events. -/
def State.turned (s : State) (n : Nat) : Target := s.target.turns (s.mcu.take n)

@[simp] theorem Target.turns_nil (t : Target) : t.turns [] = t := rfl

@[simp] theorem Target.turns_cons (t : Target) (w : List (Addr16 × Byte)) (l : List (List (Addr16 × Byte))) :
    t.turns (w :: l) = (t.mcuTurn w).turns l := rfl

theorem Target.turns_append (t : Target) (l l' : List (List (Addr16 × Byte))) : t.turns (l ++ l') = (t.turns l).turns l' :=
  List.foldl_append

/-- The MCU writes XDATA and nothing else (R73). -/
theorem Target.turns_fields (t : Target) (l : List (List (Addr16 × Byte))) : ∃ m, t.turns l = { t with xdata := m } := by
  induction l generalizing t with
  | nil => exact ⟨t.xdata, rfl⟩
  | cons w l ih =>
    obtain ⟨m, h⟩ := t.mcuTurn_fields w
    obtain ⟨m', h'⟩ := ih (t.mcuTurn w)
    exact ⟨m', by rw [Target.turns_cons, h', h]⟩

/-- A halted MCU writes nothing (R73). -/
theorem Target.turns_halted {t : Target} (h : t.mcuHalted = true) (l : List (List (Addr16 × Byte))) : t.turns l = t := by
  induction l with
  | nil => rfl
  | cons w l ih => rw [Target.turns_cons, t.mcuTurn_halted w h, ih]

section fields
variable (t : Target) (l : List (List (Addr16 × Byte)))
@[simp] theorem Target.turns_debugMode : (t.turns l).debugMode = t.debugMode := by obtain ⟨m, h⟩ := t.turns_fields l; rw [h]
@[simp] theorem Target.turns_mcuHalted : (t.turns l).mcuHalted = t.mcuHalted := by obtain ⟨m, h⟩ := t.turns_fields l; rw [h]
@[simp] theorem Target.turns_ispPtr : (t.turns l).ispPtr = t.ispPtr := by obtain ⟨m, h⟩ := t.turns_fields l; rw [h]
@[simp] theorem Target.turns_isp : (t.turns l).isp = t.isp := by obtain ⟨m, h⟩ := t.turns_fields l; rw [h]
@[simp] theorem Target.turns_eeprom : (t.turns l).eeprom = t.eeprom := by obtain ⟨m, h⟩ := t.turns_fields l; rw [h]
@[simp] theorem Target.turns_readSetup : (t.turns l).readSetup = t.readSetup := by obtain ⟨m, h⟩ := t.turns_fields l; rw [h]
@[simp] theorem Target.turns_owedRead : (t.turns l).owedRead = t.owedRead := by obtain ⟨m, h⟩ := t.turns_fields l; rw [h]
@[simp] theorem Target.turns_owedWrite : (t.turns l).owedWrite = t.owedWrite := by obtain ⟨m, h⟩ := t.turns_fields l; rw [h]
@[simp] theorem Target.turns_owedMem : (t.turns l).owedMem = t.owedMem := by obtain ⟨m, h⟩ := t.turns_fields l; rw [h]
@[simp] theorem Target.turns_owedCmd : (t.turns l).owedCmd = t.owedCmd := by obtain ⟨m, h⟩ := t.turns_fields l; rw [h]
end fields

theorem Target.Settled.turns {t : Target} (h : t.Settled) (l : List (List (Addr16 × Byte))) : (t.turns l).Settled := by
  obtain ⟨m, e⟩ := t.turns_fields l
  rw [e]
  exact h

/-- A turn of the MCU looks at XDATA and at its own halt alone. -/
theorem Target.mcuTurn_xdata_congr {g t : Target} (hh : g.mcuHalted = t.mcuHalted) (hx : g.xdata = t.xdata)
    (w : List (Addr16 × Byte)) : (g.mcuTurn w).xdata = (t.mcuTurn w).xdata := by
  have pokes : ∀ {g t : Target}, g.xdata = t.xdata → (g.pokeXdata w).xdata = (t.pokeXdata w).xdata := by
    induction w with
    | nil => exact id
    | cons a w ih => exact fun h => ih (by simp [Target.poke, h])
  unfold Target.mcuTurn
  rw [hh]
  split
  · exact hx
  · exact pokes hx

theorem Target.turns_xdata_congr {g t : Target} (hh : g.mcuHalted = t.mcuHalted) (hx : g.xdata = t.xdata)
    (l : List (List (Addr16 × Byte))) : (g.turns l).xdata = (t.turns l).xdata := by
  induction l generalizing g t with
  | nil => exact hx
  | cons w l ih => exact ih (by simpa using hh) (Target.mcuTurn_xdata_congr hh hx w)

theorem Target.SameCore.turns {g t : Target} (h : g.SameCore t) (l : List (List (Addr16 × Byte))) :
    (g.turns l).SameCore (t.turns l) where
  isp := by simp [h.isp]
  ispPtr := by simp [h.ispPtr]
  debugMode := by simp [h.debugMode]
  mcuHalted := by simp [h.mcuHalted]
  xdata := Target.turns_xdata_congr h.mcuHalted h.xdata l
  eeprom := by simp [h.eeprom]
  owedWrite := by simp [h.owedWrite]
  owedMem := by simp [h.owedMem]
  owedCmd := by simp [h.owedCmd]

theorem State.turned_zero (s : State) : s.turned 0 = s.target := rfl

theorem State.turned_one (s : State) : s.turned 1 = s.target.mcuTurn (s.mcu.headD []) := by
  unfold State.turned
  cases s.mcu with
  | nil => simp
  | cons w l => rfl

/-- The turns before some events, then those before the next. -/
theorem State.turned_add (s : State) (m n : Nat) : s.turned (m + n) = (s.turned m).turns ((s.mcu.drop m).take n) := by
  rw [State.turned, List.take_add, Target.turns_append]
  rfl

/-- An MCU that cannot write takes no turn. -/
theorem State.Quiet.turned {s : State} (h : s.Quiet) (n : Nat) : s.turned n = s.target := by
  obtain ⟨-, h | h⟩ := h
  · simp [State.turned, h]
  · exact Target.turns_halted h _

/-- What an operation does to the state it ends in, changed. -/
def Res.onState {α : Type} (f : State → State) : Res α → Res α
  | .ok a s => .ok a (f s)
  | .raised e s => .raised e (f s)
  | .hung s => .hung (f s)
  | .fault f => .fault f
  | .refused q => .refused q

/-- The same state beside another MCU and another transport. -/
def State.beside (s : State) (m : List (List (Addr16 × Byte))) (fs : List Fate) : State := { s with mcu := m, oracle := fs }

/-- The state after the MCU's turn, nothing being left for it and for the transport to do. -/
def State.calm (s : State) : State := { s with target := s.turned 1, mcu := [], oracle := [] }

theorem State.calm_quiet (s : State) : s.calm.Quiet := ⟨rfl, .inl rfl⟩

theorem State.conclude_beside (s : State) (m : List (List (Addr16 × Byte))) (fs : List Fate) (x : Txn) (a : Answer) (g : Target) :
    (s.beside m fs).conclude x a g = (s.conclude x a g).onState (·.beside m fs) := by
  cases a <;> rfl

/-- The bus and the device see neither what the MCU will write nor the transport's later choices. -/
theorem transactAs_beside (f : Fate) (x : Txn) (s : State) (m : List (List (Addr16 × Byte))) (fs : List Fate) :
    transactAs f x (s.beside m fs) = (transactAs f x s).onState (·.beside m fs) := by
  unfold transactAs
  split
  · exact State.conclude_beside ..
  · change (match s.target.answer s.cfg x with | some (_, g) => _ | none => _) = _
    cases s.target.answer s.cfg x with
    | none => rfl
    | some ag => exact State.conclude_beside ..
  · change (match s.target.answer s.cfg x with | some (a, g) => _ | none => _) = _
    cases s.target.answer s.cfg x with
    | none => rfl
    | some ag => exact State.conclude_beside ..

/-- A transaction with any fate, on the target as the MCU leaves it. -/
theorem transact_fate (x : Txn) (s : State) : transact x s =
    (transactAs (s.oracle.headD .device) x s.calm).onState (·.beside s.mcu.tail s.oracle.tail) := by
  rw [← transactAs_beside, transact_eq]
  congr 1
  simp [State.mcuActs, State.dropFate, State.beside, State.calm, State.turned_one]

/-- A transaction the reference device answers does what it does on the target as the MCU leaves it. -/
theorem transact_device (x : Txn) {s : State} (ho : s.oracle.headD .device = .device) :
    transact x s = (transact x s.calm).onState (·.beside s.mcu.tail s.oracle.tail) := by
  have calm : transact x s.calm = transactAs .device x s.calm := by
    rw [transact_eq]
    simp [State.calm, State.mcuActs, State.dropFate]
  rw [transact_fate, ho, calm]

/-- A success on the target as the MCU leaves it. -/
theorem transact_of_calm {x : Txn} {s : State} {rs : List Byte} {e : Event} {g : Target} (ho : s.oracle = [])
    (h : transact x s.calm = .ok rs (s.calm.after [e] g)) : transact x s = .ok rs (s.after [e] g) := by
  rw [transact_device x (by simp [ho]), h]
  simp [Res.onState, State.beside, State.calm, State.after, ho]

/-- A failure on the target as the MCU leaves it. -/
theorem transact_of_calm_raised {x : Txn} {s : State} {er : Err} {e : Event} {g : Target} (ho : s.oracle = [])
    (h : transact x s.calm = .raised er (s.calm.after [e] g)) : transact x s = .raised er (s.after [e] g) := by
  rw [transact_device x (by simp [ho]), h]
  simp [Res.onState, State.beside, State.calm, State.after, ho]

theorem sleep_turned (ms : Nat) (s : State) : sleep ms s = s.after [.d ms] ((s.turned 1).wait ms) := by
  simp [State.turned_one, sleep, State.slept, State.record, State.after, State.mcuActs]

/-! What passes a turn of the MCU by. -/

/-- The target with debug mode on or off (R68). -/
def Target.inDebug (t : Target) (on : Bool) : Target := { t with debugMode := on }

/-- The target with the MCU halted or running (R69). -/
def Target.inHalt (t : Target) (on : Bool) : Target := { t with mcuHalted := on }

/-- A change of the target that the MCU's writes do not see comes before its turns or after them. -/
theorem Target.turns_commute {f : Target → Target} (hp : ∀ t a v, (f t).poke (.xdata a) v = f (t.poke (.xdata a) v))
    (hh : ∀ t, (f t).mcuHalted = t.mcuHalted) (t : Target) (l : List (List (Addr16 × Byte))) : (f t).turns l = f (t.turns l) := by
  have pokes (t : Target) (w : List (Addr16 × Byte)) : (f t).pokeXdata w = f (t.pokeXdata w) := by
    induction w generalizing t with
    | nil => rfl
    | cons a w ih => exact (congrArg (·.pokeXdata w) (hp t a.1 a.2)).trans (ih _)
  have turn (t : Target) (w : List (Addr16 × Byte)) : (f t).mcuTurn w = f (t.mcuTurn w) := by
    unfold Target.mcuTurn
    rw [hh, pokes]
    split <;> rfl
  induction l generalizing t with
  | nil => rfl
  | cons w l ih => rw [Target.turns_cons, turn, ih, Target.turns_cons]

theorem Target.turns_wait (t : Target) (ms : Nat) (l : List (List (Addr16 × Byte))) : (t.wait ms).turns l = (t.turns l).wait ms :=
  Target.turns_commute (f := (·.wait ms)) (fun _ _ _ => rfl) (fun _ => rfl) t l

theorem Target.turns_inDebug (t : Target) (on : Bool) (l : List (List (Addr16 × Byte))) :
    (t.inDebug on).turns l = (t.turns l).inDebug on :=
  Target.turns_commute (f := (·.inDebug on)) (fun _ _ _ => rfl) (fun _ => rfl) t l

theorem Target.Settled.sameCore_wait {t : Target} (h : t.Settled) (ms : Nat) : (t.wait ms).SameCore t := by
  constructor <;> simp [h.1, h.2]

theorem Target.SameCore.settled {g t : Target} (h : g.SameCore t) (hs : t.Settled) : g.Settled :=
  ⟨⟨h.owedCmd.trans hs.1.1, h.owedMem.trans hs.1.2⟩, h.owedWrite.trans hs.2⟩

theorem Target.SameCore.inDebug {g t : Target} (h : g.SameCore t) (on : Bool) : (g.inDebug on).SameCore (t.inDebug on) :=
  ⟨h.isp, h.ispPtr, rfl, h.mcuHalted, h.xdata, h.eeprom, h.owedWrite, h.owedMem, h.owedCmd⟩

theorem Target.SameCore.inHalt {g t : Target} (h : g.SameCore t) (on : Bool) : (g.inHalt on).SameCore (t.inHalt on) :=
  ⟨h.isp, h.ispPtr, h.debugMode, rfl, h.xdata, h.eeprom, h.owedWrite, h.owedMem, h.owedCmd⟩

/-- Debug mode switched to what it is. -/
theorem Target.inDebug_self {t : Target} {on : Bool} (h : t.debugMode = on) : t.inDebug on = t := by rw [← h]; rfl

theorem State.turned_settled {s : State} (h : s.target.Settled) (n : Nat) : (s.turned n).Settled := h.turns _

@[simp] theorem State.turned_debugMode (s : State) (n : Nat) : (s.turned n).debugMode = s.target.debugMode := Target.turns_debugMode ..

/-- The turns before the next events come after those before the events that were. -/
theorem State.turned_after {s : State} {es : List Event} {g : Target} {on : Bool}
    (h : g.SameCore ((s.turned es.length).inDebug on)) (n : Nat) :
    ((s.after es g).turned n).SameCore ((s.turned (es.length + n)).inDebug on) := by
  rw [State.turned_add, ← Target.turns_inDebug]
  exact h.turns _

/-! The mode gate beside the MCU (R114, R117, R122). -/

section gate
variable {s : State} (ho : s.oracle = [])
include ho

theorem queryDebug_turned_on (ha : s.target.Answers) :
    ∃ b g, queryDebugEnabled.run s = .ok true (s.after [rOk .dbg [] [b]] g) ∧ g.SameCore ((s.turned 1).inDebug true) := by
  have answers : s.calm.target.Answers := ⟨(s.turned_debugMode 1).trans ha.1, State.turned_settled ha.2 1⟩
  obtain ⟨b, g, run, hg⟩ := s.calm_quiet.dbgProbe answers
  refine ⟨b, g, ?_, (Target.inDebug_self answers.1).symm ▸ hg⟩
  rw [queryDebugEnabled_run, transact_of_calm ho run]
  rfl

theorem queryDebug_turned_off (hd : s.target.debugMode = false) (hs : s.target.Settled) :
    queryDebugEnabled.run s = .ok false (s.after [probeOff] (s.turned 1)) := by
  have run : transact txDbgProbe s.calm = .raised (.transportError .unreachable) (s.calm.after [probeOff] (s.turned 1)) :=
    s.calm_quiet.silent ((s.turned_debugMode 1).trans hd) (State.turned_settled hs 1) (.inr ⟨_, _, rfl⟩)
  rw [queryDebugEnabled_run, transact_of_calm_raised ho run]

omit ho in
/-- The write of a mode between its two delays. -/
theorem debugWrite_of_frame {on : Bool} (hf : (!on && s.haltedFlag) = false) {e : Event} {g : Target}
    (frame : transact (txDebug on s.cfg) (sleep 50 s) = .ok [] ((sleep 50 s).after [e] g))
    (hg : (g.wait 50).SameCore ((s.turned 2).inDebug on)) :
    ∃ g', debugWrite on s = .ok () (s.after [.d 50, e, .d 50] g') ∧ g'.SameCore ((s.turned 3).inDebug on) := by
  have slept : sleep 50 s = s.after [.d 50] ((s.turned 1).wait 50) := sleep_turned 50 s
  have run : debugWrite on s = .ok () (sleep 50 (s.after [.d 50, e] g)) := by
    rw [debugWrite, hf, if_neg (by simp), tMode, frame, slept, State.after_after]
    rfl
  rw [sleep_turned, State.after_after] at run
  refine ⟨_, run, ?_⟩
  have turned : ((s.after [.d 50, e] (g.wait 50)).turned 1).SameCore ((s.turned 3).inDebug on) :=
    State.turned_after (es := [.d 50, e]) hg 1
  exact (Target.turns_wait g 50 _) ▸ turned

omit ho in
/-- What the MCU has done to the target before the frame of a mode. -/
theorem slept_calm (hs : s.target.Settled) (on : Bool) (hd : s.target.debugMode = on) :
    (sleep 50 s).calm.target.SameCore ((s.turned 2).inDebug on) := by
  rw [sleep_turned]
  refine State.turned_after (es := [.d 50]) ?_ 1
  rw [Target.inDebug_self ((s.turned_debugMode _).trans hd)]
  exact (State.turned_settled hs 1).sameCore_wait 50

theorem enable_turned (hs : s.target.Settled) : ∃ g,
    debugWrite true s = .ok () (s.after [.d 50, wOk .ddc s.cfg.enable.bytes, .d 50] g) ∧
      g.SameCore ((s.turned 3).inDebug true) := by
  have calm := slept_calm hs _ rfl
  have settled : (sleep 50 s).calm.target.Settled := calm.settled (State.turned_settled hs 2)
  have frame := (sleep 50 s).calm_quiet.dbgEn settled.2
  refine debugWrite_of_frame rfl (transact_of_calm ho frame) ?_
  refine .trans (b := (sleep 50 s).calm.target.inDebug true) ?_ (calm.inDebug true)
  constructor <;> simp [Target.inDebug, settled.1, settled.2]

theorem disable_turned (ha : s.target.Answers) (hf : s.haltedFlag = false) : ∃ g,
    debugWrite false s = .ok () (s.after [.d 50, wOk .dbg s.cfg.disable.bytes, .d 50] g) ∧
      g.SameCore ((s.turned 3).inDebug false) := by
  have calm := slept_calm ha.2 _ ha.1
  have settled : (sleep 50 s).calm.target.Settled := calm.settled (State.turned_settled ha.2 2)
  have frame := (sleep 50 s).calm_quiet.dbgDis ⟨calm.debugMode, settled⟩
  refine debugWrite_of_frame (by simp [hf]) (transact_of_calm ho frame) ?_
  refine .trans (b := (sleep 50 s).calm.target.inDebug false) ?_ (calm.inDebug false)
  constructor <;> simp [Target.inDebug, settled.1, settled.2]

/-- Debug mode found on, or switched on (R117). -/
theorem setDebug_on_turned (hs : s.target.Settled) : ∃ b g, (setDebugEnabled true false).run s =
      .ok () (s.after (enableEvents s.cfg s.target.debugMode b) g) ∧
    g.SameCore ((s.turned (enableEvents s.cfg s.target.debugMode b).length).inDebug true) := by
  rw [setDebugEnabled_run, if_neg (by simp)]
  cases hd : s.target.debugMode with
  | true =>
    obtain ⟨b, g, run, hg⟩ := queryDebug_turned_on ho ⟨hd, hs⟩
    exact ⟨b, g, by rw [run]; rfl, hg⟩
  | false =>
    have probed : (s.after [probeOff] (s.turned 1)).target.Settled := State.turned_settled hs 1
    obtain ⟨g, run, hg⟩ := enable_turned (s := s.after [probeOff] (s.turned 1)) ho probed
    rw [State.after_after] at run
    refine ⟨0, g, by rw [queryDebug_turned_off ho hd hs, Res.bind_ok, if_neg (by simp), run]; rfl, hg.trans ?_⟩
    have turned := State.turned_after (s := s) (es := [probeOff]) (g := s.turned 1) (on := false)
      ((Target.inDebug_self ((s.turned_debugMode 1).trans hd)).symm ▸ .refl _) 3
    exact turned.inDebug true

/-- Debug mode found on and switched off (R117). -/
theorem setDebug_off_turned (ha : s.target.Answers) (hf : s.haltedFlag = false) : ∃ b g,
    (setDebugEnabled false false).run s = .ok () (s.after (disableEvents s.cfg b) g) ∧
      g.SameCore ((s.turned 4).inDebug false) := by
  obtain ⟨b, g, run, hg⟩ := queryDebug_turned_on ho ha
  have answers : (s.after [rOk .dbg [] [b]] g).target.Answers := ⟨hg.debugMode, hg.settled (State.turned_settled ha.2 1)⟩
  obtain ⟨g', run', hg'⟩ := disable_turned (s := s.after [rOk .dbg [] [b]] g) ho answers hf
  rw [State.after_after] at run'
  refine ⟨b, g', by rw [setDebugEnabled_run, if_neg (by simp), run, Res.bind_ok, if_neg (by simp), run']; rfl, hg'.trans ?_⟩
  exact (State.turned_after (es := [rOk .dbg [] [b]]) hg 3).inDebug false

/-- The gate of a debug request that passes, with the policy or without (R122). -/
theorem debugGuardEnter_turned (hs : s.target.Settled) (hd : s.target.debugMode = true ∨ s.debugAutoEnable = true) : ∃ ph b g,
    debugGuardEnter.run s = .ok () (State.after { s with autoTaken := s.debugAutoEnable, phase := ph }
      (enableEvents s.cfg s.target.debugMode b) g) ∧
    g.SameCore ((s.turned (enableEvents s.cfg s.target.debugMode b).length).inDebug true) := by
  rw [debugGuardEnter_run]
  cases hp : s.debugAutoEnable with
  | true =>
    obtain ⟨b, g, run, hg⟩ := setDebug_on_turned (s := s.latchAuto.move false 0 true) ho hs
    exact ⟨_, b, g, by rw [if_pos (by exact hp), run]; simp [State.latchAuto, State.move, State.after, hp]; rfl, hg⟩
  | false =>
    have on : s.target.debugMode = true := by simpa [hp] using hd
    obtain ⟨b, g, run, hg⟩ := queryDebug_turned_on (s := s.latchAuto) ho ⟨on, hs⟩
    rw [on]
    refine ⟨s.phase, b, g, ?_, hg⟩
    rw [if_neg (by simp [State.latchAuto, hp]), run]
    simp [State.latchAuto, State.after, hp, enableEvents]

end gate

/-- A frame the device answers ends the time of a write still owed (R71): it finds the target unsettled. -/
theorem transact_unsettle (x : Txn) {s : State} (ho : s.oracle = []) (hm : s.mcu = []) :
    transact x s = transact x { s with target := s.target.unsettle } := by
  have quiet (s : State) (ho : s.oracle = []) (hm : s.mcu = []) : transact x s = transactAs .device x s := by
    rw [transact_eq, ho]
    cases s
    simp_all [State.mcuActs, State.dropFate]
  have same : s.target.unsettle.answer s.cfg x = s.target.answer s.cfg x := by
    rw [Target.answer, s.target.unsettle_noneOwed.unsettle, Target.answer]
  rw [quiet s ho hm, quiet { s with target := s.target.unsettle } ho hm]
  simp only [transactAs, same]
  cases s.target.answer s.cfg x with
  | none => rfl
  | some ag => dsimp only; cases outcomeOf x ag.1 <;> rfl

/-- Halt control, the MCU taking its turn before the frame and, where it runs then, before the delay (R126). -/
theorem haltCtl_turned {s : State} (ho : s.oracle = []) (ha : (s.turned 1).unsettle.Answers) (on : Bool)
    (hd : s.cfg.disable.bytes ≠ [0x80, if on then 0x01 else 0x00]) : ∃ g,
    (haltCtl on).run s = .ok () ({ s with haltedFlag := on }.after [wOk .dbg [0x80, if on then 0x01 else 0x00], .d 100] g) ∧
      g.SameCore (((s.turned 1).unsettle.inHalt on).turns ((s.mcu.drop 1).take 1)) := by
  have calm : transact (txHalt on) s.calm = _ := (transact_unsettle (txHalt on) (s := s.calm) rfl rfl).trans
    (State.Quiet.dbgHalt (s := { s.calm with target := (s.turned 1).unsettle }) ⟨rfl, .inl rfl⟩ ha on hd)
  have slept (e : Event) (g : Target) : sleep 100 ((s.after [e] g).setHalted on) =
      { s with haltedFlag := on }.after [e, .d 100] ((g.turns ((s.mcu.drop 1).take 1)).wait 100) := by
    rw [sleep_turned]
    simp [State.after, State.setHalted, State.turned]
  rw [haltCtl_run, transact_of_calm ho calm, Res.bind_ok, tHalt, slept]
  refine ⟨_, rfl, ?_⟩
  rw [← Target.turns_wait]
  obtain ⟨-, ⟨cmd, mem⟩, write⟩ := ha
  rw [Target.unsettle_owedCmd] at cmd
  rw [Target.unsettle_owedMem] at mem
  refine Target.SameCore.turns ?_ _
  constructor <;> simp [Target.inHalt, cmd, mem, write]

/-- The same where no delay is owed. -/
theorem haltCtl_turned_answers {s : State} (ho : s.oracle = []) (ha : s.target.Answers) (on : Bool)
    (hd : s.cfg.disable.bytes ≠ [0x80, if on then 0x01 else 0x00]) : ∃ g,
    (haltCtl on).run s = .ok () ({ s with haltedFlag := on }.after [wOk .dbg [0x80, if on then 0x01 else 0x00], .d 100] g) ∧
      g.SameCore (((s.turned 1).inHalt on).turns ((s.mcu.drop 1).take 1)) := by
  have settled := State.turned_settled ha.2 1
  have same : (s.turned 1).unsettle = s.turned 1 := Target.unsettle_settled _ settled.2
  have answers : (s.turned 1).unsettle.Answers := by rw [same]; exact ⟨(s.turned_debugMode 1).trans ha.1, settled⟩
  simpa only [same] using haltCtl_turned ho answers on hd

end Sys2Proof.Machine
end

section
/-! PROOF. A debug range request beside the MCU, by its plan: the opening, the transfers, the close and the exit (R125). -/

namespace Sys2Proof.Machine

/-! The transfers (R144 to R152), of both spaces and both directions at once. -/

/-- The location of transfer `j` (R86). -/
def Plan.loc (p : Plan) (j : Nat) : Loc :=
  match p.space with
  | .isp => .isp (isp8 (p.addr j))
  | .xdata => .xdata (addr16 (p.addr j))
  | .eeprom => .eeprom p.target (addr16 (p.addr j))

/-- The bytes a write sends (R86). -/
def Plan.values (p : Plan) : List Byte := p.payload.getD []

/-- The frame that starts transfer `j` of a debug request (R81, R82). -/
def Plan.command (p : Plan) (j : Nat) : Txn :=
  match p.space, p.write with
  | .eeprom, false => txEeRd (addr16 (p.addr j)) p.target
  | .eeprom, true => txEeWr (addr16 (p.addr j)) p.target (p.value j)
  | _, false => txXdataRd (addr16 (p.addr j))
  | _, true => txXdataWr (addr16 (p.addr j)) (p.value j)

/-- The delays after that frame (R193). -/
def Plan.pause (p : Plan) : List Event := (if p.space = .eeprom then [.d 10] else []) ++ settleEvents p.halt

/-- The data read that ends a read transfer (R83). -/
def Plan.dataRead (p : Plan) (t : Target) (j : Nat) : List Event := if p.write then [] else [rOk .dbg [] [t.peek (p.loc j)]]

/-- The events of transfer `j`. -/
def Plan.moves (p : Plan) (t : Target) (j : Nat) : List Event := eventOf (p.command j) (.ok []) :: (p.pause ++ p.dataRead t j)

/-- The byte transfer `j` brings. -/
def Plan.out (p : Plan) (t : Target) (j : Nat) : List Byte := if p.write then [] else [t.peek (p.loc j)]

/-- What transfer `j` does to the target. -/
def Plan.moved (p : Plan) (t : Target) (j : Nat) : Target := if p.write then t.poke (p.loc j) (p.value j) else t

/-- What the delays after the command do to the state. -/
def Plan.paused (p : Plan) (s : State) : State := settled p.halt (if p.space = .eeprom then sleep tEeprom s else s)

/-- A transfer of a debug request: the command, the delays and, for a read, the data read. -/
theorem Plan.transfer_debug_run {p : Plan} (hsp : p.space ≠ .isp) (j : Nat) (s : State) : (p.transfer j).run s =
    (transact (p.command j) s).bind fun _ s =>
      if p.write then .ok () (p.paused s)
      else (transact txDbgData (p.paused s)).bind fun rs s => .ok () (s.push (rs.headD 0)) := by
  rw [Plan.transfer_run]
  unfold readXfer writeXfer Plan.command Plan.paused
  cases hs : p.space with
  | isp => exact absurd hs hsp
  | xdata => cases hw : p.write <;> simp [readXdata_run, writeXdata_run, Res.bind_assoc]
  | eeprom => cases hw : p.write <;> simp [readEeprom_run, writeEeprom_run, Res.bind_assoc]

/-- The events of one transfer, in the statements' words (R144 to R152). -/
theorem Plan.moves_eq (p : Plan) (hsp : p.space ≠ .isp) (t : Target) (k : Nat) : p.moves t k =
    match p.space, p.write with
    | .eeprom, false => [wOk .dbg [0x44, loByte (p.addr k), p.target, 0x00, hiByte (p.addr k)], .d 10] ++ settleEvents p.halt ++
        [rOk .dbg [] [t.eepromAt p.target (p.addr k)]]
    | .eeprom, true => [wOk .dbg [0x04, loByte (p.addr k), p.target, p.value k, hiByte (p.addr k)], .d 10] ++ settleEvents p.halt
    | _, false => [wOk .dbg [0x3a, loByte (p.addr k), hiByte (p.addr k)]] ++ settleEvents p.halt ++
        [rOk .dbg [] [t.xdataAt (p.addr k)]]
    | _, true => wOk .dbg [0x3b, loByte (p.addr k), hiByte (p.addr k), p.value k] :: settleEvents p.halt := by
  unfold Plan.moves Plan.pause Plan.dataRead Plan.command Plan.loc
  cases hs : p.space with
  | isp => exact absurd hs hsp
  | xdata =>
    cases hw : p.write with
    | false => simp [txXdataRd, eventOf, lo8_addr16, hi8_addr16, cmdXdataRd]; rfl
    | true => simp [txXdataWr, eventOf, lo8_addr16, hi8_addr16, cmdXdataWr]
  | eeprom =>
    cases hw : p.write with
    | false => simp [txEeRd, eventOf, lo8_addr16, hi8_addr16, cmdEeRd, eeRdPad]; rfl
    | true => simp [txEeWr, eventOf, lo8_addr16, hi8_addr16, cmdEeWr]

/-- One transfer where the MCU cannot write. -/
theorem Plan.transfer_quiet {p : Plan} (hsp : p.space ≠ .isp) {s : State} (h : s.Quiet) (ha : s.target.Answers)
    (hh : p.halt = true → s.target.mcuHalted = true) (j : Nat) : ∃ g,
    (p.transfer j).run s = .ok () ({ s with result := s.result ++ p.out s.target j }.after (p.moves s.target j) g) ∧
      g.SameCore (p.moved s.target j) := by
  rw [Plan.transfer_run, Plan.moves_eq p hsp]
  unfold readXfer writeXfer Plan.out Plan.moved Plan.loc
  cases hs : p.space with
  | isp => exact absurd hs hsp
  | xdata =>
    cases hw : p.write with
    | false =>
      obtain ⟨g, run, hg⟩ := h.readXdata ha (p.addr j) p.halt hh
      exact ⟨g, by rw [if_neg (by simp)]; dsimp only; rw [run]; rfl, hg⟩
    | true =>
      obtain ⟨g, run, hg⟩ := h.writeXdata ha (p.addr j) (p.value j) p.halt hh
      exact ⟨g, by simpa using run, hg⟩
  | eeprom =>
    cases hw : p.write with
    | false =>
      obtain ⟨g, run, hg⟩ := h.readEeprom ha (p.addr j) p.target p.halt hh
      exact ⟨g, by rw [if_neg (by simp)]; dsimp only; rw [run]; rfl, hg⟩
    | true =>
      obtain ⟨g, run, hg⟩ := h.writeEeprom ha (p.addr j) p.target (p.value j) p.halt hh
      exact ⟨g, by simpa using run, hg⟩

/-- The locations of a range inside the window differ. -/
theorem Plan.loc_ne {p : Plan} (hsp : p.space ≠ .isp) (hw : InWindow 0xffff p.start p.length) {k j : Nat} (hk : k < j)
    (hj : j < p.count) : p.loc k ≠ p.loc j := by
  have addr : addr16 (p.addr k) ≠ addr16 (p.addr j) := by
    intro e
    have e := congrArg BitVec.toNat e
    simp only [addr16, Plan.addr, BitVec.toNat_ofInt] at e
    obtain ⟨h1, h2, h3, h4⟩ := hw
    simp only [Plan.count, transferCount] at hj
    omega
  unfold Plan.loc
  cases hs : p.space with
  | isp => exact absurd hs hsp
  | xdata => exact fun e => addr (Loc.xdata.inj e)
  | eeprom => exact fun e => addr (Loc.eeprom.inj e).2

/-- A byte stored after others, at a location of its own. -/
theorem Target.StoresAll.snoc {g g' t : Target} {loc : Nat → Loc} {vs : List Byte} {v : Byte} (h : g.StoresAll t loc vs)
    (h' : g'.Stores g (loc vs.length) v) (hne : ∀ k < vs.length, loc k ≠ loc vs.length) : g'.StoresAll t loc (vs ++ [v]) := by
  refine ⟨fun k hk => ?_, fun x hx => ?_⟩
  · rcases Nat.lt_or_ge k vs.length with hlt | hge
    · rw [h'.2 _ (hne k hlt), List.getElem_append_left hlt, h.1 k hlt]
    · have : k = vs.length := by simp at hk; omega
      subst this
      simpa using h'.1
  · rw [h'.2 _ (hx _ (by simp)), h.2 x fun k hk => hx k (by simp; omega)]

/-- The target after `j` transfers of a plan from `t` on: the first `j` bytes of a write are stored, a read stores nothing. -/
structure Plan.Reached (p : Plan) (t : Target) (j : Nat) (g : Target) : Prop where
  answers : g.Answers
  mcuHalted : g.mcuHalted = t.mcuHalted
  ispPtr : g.ispPtr = t.ispPtr
  wf : p.write = true → g.wf
  bytes : if p.write then g.StoresAll t p.loc (p.values.take j) else g.SameBytes t

theorem Target.SameCore.wf {g t : Target} (h : g.SameCore t) (hwf : t.wf) : g.wf := by
  unfold Target.wf
  rw [h.isp, h.xdata, h.eeprom]
  exact hwf

theorem Target.turns_wf (t : Target) (l : List (List (Addr16 × Byte))) (h : t.wf) : (t.turns l).wf := by
  induction l generalizing t with
  | nil => exact h
  | cons w l ih => exact ih _ (t.mcuTurn_wf w h)

/-- What the statements say of a plan: its space is one of the debug interface, its range lies in the window, and a write has one byte
for each transfer. -/
structure Plan.Debug (p : Plan) : Prop where
  space : p.space ≠ .isp
  window : InWindow 0xffff p.start p.length
  values : p.write = true → p.values.length = p.count

theorem Plan.value_eq {p : Plan} {j : Nat} (h : j < p.values.length) : p.value j = p.values[j] := by
  rw [List.getElem_eq_getD 0]
  rfl

theorem Target.Answers.poke {t : Target} (h : t.Answers) (l : Loc) (v : Byte) : (t.poke l v).Answers := by
  cases l <;> exact h

theorem Plan.Reached.zero {p : Plan} {t : Target} (ha : t.Answers) (hwf : p.write = true → t.wf) : p.Reached t 0 t where
  answers := ha
  mcuHalted := rfl
  ispPtr := rfl
  wf := hwf
  bytes := by
    split
    · exact ⟨fun k hk => absurd hk (by simp), fun _ _ => rfl⟩
    · exact fun _ => rfl

theorem Plan.Reached.succ {p : Plan} (hp : p.Debug) {t g g' : Target} {j : Nat} (h : p.Reached t j g) (hj : j < p.count)
    (hg : g'.SameCore (p.moved g j)) : p.Reached t (j + 1) g' := by
  have bytes := h.bytes
  unfold Plan.moved at hg
  cases hw : p.write with
  | false =>
    rw [hw, if_neg (by simp)] at hg bytes
    exact ⟨hg.answers h.answers, hg.mcuHalted.trans h.mcuHalted, hg.ispPtr.trans h.ispPtr, by simp [hw],
      by rw [hw, if_neg (by simp)]; exact fun x => (hg.peek x).trans (bytes x)⟩
  | true =>
    rw [hw, if_pos rfl] at hg bytes
    have len : j < p.values.length := by rw [hp.values hw]; exact hj
    have size : (p.values.take j).length = j := by simp; omega
    refine ⟨hg.answers (h.answers.poke _ _), by rw [hg.mcuHalted, Target.poke_mcuHalted, h.mcuHalted],
      by rw [hg.ispPtr, Target.poke_ispPtr, h.ispPtr], fun _ => hg.wf (Target.poke_wf _ _ _ (h.wf hw)), ?_⟩
    rw [hw, if_pos rfl, ← List.take_append_getElem len, ← Plan.value_eq len]
    have stores : g'.Stores g (p.loc j) (p.value j) :=
      ⟨by rw [hg.peek, Target.peek_poke_same _ _ _ (h.wf hw)], fun x hx => by rw [hg.peek, Target.peek_poke_other _ _ _ _ hx]⟩
    refine bytes.snoc ?_ ?_ <;> rw [size]
    · exact stores
    · exact fun k hk => Plan.loc_ne hp.space hp.window hk hj

/-- The events of a transfer depend on the target through the byte that is read alone. -/
theorem Plan.Reached.moves_eq {p : Plan} {t g : Target} {j : Nat} (h : p.Reached t j g) (i : Nat) :
    p.moves g i = p.moves t i ∧ p.out g i = p.out t i := by
  have bytes := h.bytes
  unfold Plan.moves Plan.dataRead Plan.out
  cases hw : p.write with
  | false =>
    rw [hw, if_neg (by simp)] at bytes
    simp [bytes (p.loc i)]
  | true => simp

/-- The first `k` transfers where the MCU cannot write. -/
theorem Plan.transfers_debug {p : Plan} (hp : p.Debug) {s : State} (h : s.Quiet) (ha : s.target.Answers)
    (hh : p.halt = true → s.target.mcuHalted = true) (hwf : p.write = true → s.target.wf) {k : Nat} (hk : k ≤ p.count) : ∃ ph g,
    (p.transfers k 0).run s = .ok () ({ s with phase := ph, result := s.result ++ (List.range k).flatMap (p.out s.target) }.after
      ((List.range k).flatMap (p.moves s.target)) g) ∧ p.Reached s.target k g := by
  have one (j : Nat) (s' : State) (hj : j < p.count) (h' : s'.Quiet) (_ : s'.cfg = s.cfg) (hr : p.Reached s.target j s'.target) :
      ∃ g, (p.transfer j).run s' = .ok () ({ s' with result := s'.result ++ p.out s.target j }.after (p.moves s.target j) g) ∧
        p.Reached s.target (j + 1) g := by
    obtain ⟨g, run, hg⟩ := Plan.transfer_quiet hp.space h' hr.answers (fun e => hr.mcuHalted.trans (hh e)) j
    rw [(hr.moves_eq j).1, (hr.moves_eq j).2] at run
    exact ⟨g, run, hr.succ hp hj hg⟩
  obtain ⟨ph, g, run, hg⟩ := transfers_quiet p s.cfg p.count (p.Reached s.target) s.target.mcuHalted (fun _ _ h => h.mcuHalted)
    (p.out s.target) (p.moves s.target) one k 0 s (by omega) h rfl (.zero ha hwf)
  rw [← List.range_eq_range'] at run
  exact ⟨ph, g, run, by simpa using hg⟩

/-! The parts of the range operation (R125). -/

/-- What stands before the transfers: the gate, the checks and the open of the bracket. -/
def Plan.opening (p : Plan) : Prog Unit :=
  p.advance.bind fun _ => p.gate.bind fun _ => p.advance.bind fun _ => p.check.bind fun _ => p.advance.bind fun _ => p.haltOpen

theorem Plan.program_opening (p : Plan) (s : State) : p.program.run s =
    (p.opening.run s).bind fun _ s => (p.closed ((p.transfers p.count 0).run s)).bind fun _ s =>
      (p.exit.run s).bind fun _ s => .ok (if p.write then .void else .bytes s.result) s := by
  rw [Plan.program_run, Plan.opening]
  simp only [Prog.run_bind, Plan.advance_run, Res.bind_ok, Res.bind_assoc]

/-- The exit of a debug request (R122). -/
theorem Plan.exit_debug_run {p : Plan} (hsp : p.space ≠ .isp) (s : State) : p.exit.run s =
    if s.autoTaken then (setDebugEnabled false false).run s else .ok () s := by
  rw [← debugGuardExit_run]
  unfold Plan.exit
  cases hs : p.space with
  | isp => exact absurd hs hsp
  | xdata => rfl
  | eeprom => rfl

section parts
variable {p : Plan} (hp : p.Debug) {s : State} (ho : s.oracle = [])
include hp ho

/-- The opening without the bracket. -/
theorem Plan.opening_plain (hck : ∀ s, p.check.run s = .ok () s) (hb : p.bracket = false) (hs : s.target.Settled)
    (hd : s.target.debugMode = true ∨ s.debugAutoEnable = true) : ∃ ph b g,
    p.opening.run s = .ok () (State.after { s with autoTaken := s.debugAutoEnable, phase := ph }
      (enableEvents s.cfg s.target.debugMode b) g) ∧
    g.SameCore ((s.turned (enableEvents s.cfg s.target.debugMode b).length).inDebug true) := by
  obtain ⟨ph, b, g, run, hg⟩ := debugGuardEnter_turned (s := p.move true s) ho hs hd
  refine ⟨?_, b, g, ?_, hg⟩
  rotate_left
  · simp only [Plan.opening, Prog.run_bind, Plan.advance_run, Res.bind_ok, Plan.gate_debug hp.space, run, hck, Plan.haltOpen_run, hb,
      Bool.false_eq_true, if_false]
    rfl

/-- The opening with the bracket: the MCU is halted after it. -/
theorem Plan.opening_bracket (hck : ∀ s, p.check.run s = .ok () s) (hb : p.bracket = true) (hs : s.target.Settled)
    (hd : s.target.debugMode = true ∨ s.debugAutoEnable = true) (hc : HaltDistinct s.cfg) : ∃ ph b g,
    p.opening.run s = .ok () (State.after
      { s with autoTaken := s.debugAutoEnable, phase := ph, haltedFlag := true, bracketOpen := true }
      (enableEvents s.cfg s.target.debugMode b ++ [wOk .dbg [0x80, 0x01], .d 100]) g) ∧
    g.SameCore (((s.turned ((enableEvents s.cfg s.target.debugMode b).length + 1)).inDebug true).inHalt true) := by
  obtain ⟨ph, b, g, run, hg⟩ := debugGuardEnter_turned (s := p.move true s) ho hs hd
  generalize he : enableEvents (p.move true s).cfg (p.move true s).target.debugMode b = evs at run hg
  have he' : enableEvents s.cfg s.target.debugMode b = evs := he
  generalize hs1 : State.after _ evs g = s1 at run
  have answers : s1.target.Answers := by
    rw [← hs1]; exact ⟨hg.debugMode, hg.settled (State.turned_settled hs _)⟩
  obtain ⟨g', run', hg'⟩ := haltCtl_turned_answers (s := p.move true (p.move true s1)) (by rw [← hs1]; exact ho) answers true
    (by rw [← hs1]; exact hc.1)
  rw [Target.turns_halted rfl] at hg'
  refine ⟨?_, b, g', ?_, ?_⟩
  rotate_left
  · simp only [Plan.opening, Prog.run_bind, Plan.advance_run, Res.bind_ok, Plan.gate_debug hp.space, run, hck, Plan.haltOpen_run, hb,
      if_true, run', he']
    rw [← hs1]
    simp [State.after, Plan.move, State.move, State.markOpen]
    rfl
  · refine hg'.trans (Target.SameCore.inHalt ?_ true)
    rw [he', ← hs1]
    exact State.turned_after hg 1

omit hp in
/-- The close after transfers that succeed, the MCU halted before it. -/
theorem Plan.closed_bracket (hop : s.bracketOpen = true) (hpe : s.pendingError = none) (ha : s.target.Answers)
    (hm : s.target.mcuHalted = true) (hc : HaltDistinct s.cfg) : ∃ ph g,
    p.closed (.ok () s) = .ok () (State.after { s with haltedFlag := false, bracketOpen := false, phase := ph }
      [wOk .dbg [0x80, 0x00], .d 100] g) ∧ g.SameCore ((s.target.inHalt false).turns ((s.mcu.drop 1).take 1)) := by
  obtain ⟨g, run, hg⟩ := haltCtl_turned_answers (s := s.markClosed) ho ha false hc.2
  refine ⟨?_, g, ?_, ?_⟩
  rotate_left
  · simp only [Plan.closed, hop, if_true, Plan.haltClose_run, run, Res.bind_ok]
    rw [show (State.after { s.markClosed with haltedFlag := false } _ g).pendingError = none from hpe]
    simp [State.after, Plan.move, State.move, State.markClosed]
    rfl
  · rwa [show s.markClosed.turned 1 = s.target from Target.turns_halted hm _] at hg

/-- The exit, with the policy or without (R122). -/
theorem Plan.exit_turned (ha : s.target.Answers) (hf : s.haltedFlag = false) : ∃ n evs g,
    p.exit.run s = .ok () (s.after evs g) ∧ g.SameCore ((s.turned n).inDebug (!s.autoTaken)) := by
  rw [Plan.exit_debug_run hp.space]
  cases hauto : s.autoTaken with
  | true =>
    obtain ⟨b, g, run, hg⟩ := setDebug_off_turned ho ha hf
    exact ⟨4, _, g, run, hg⟩
  | false => exact ⟨0, [], s.target, by simp [State.after], (Target.inDebug_self ha.1).symm ▸ .refl _⟩

end parts

/-! A bracketed request beside any MCU. -/

theorem Target.Answers.of_sameCore_turns {g t : Target} {l : List (List (Addr16 × Byte))} (ha : t.Answers)
    (h : g.SameCore (t.turns l)) : g.Answers :=
  h.answers ⟨(Target.turns_debugMode ..).trans ha.1, ha.2.turns l⟩

/-- A bracketed request that succeeds: the transfers start from the target `g₀` as the MCU's turns before the halt frame leave it, and
lead to `m`; after the close the MCU runs again, for the turns `l`. -/
theorem Plan.program_bracket {p : Plan} (hp : p.Debug) {s : State} (ho : s.oracle = []) (hpe : s.pendingError = none)
    (hck : ∀ s, p.check.run s = .ok () s) (hb : p.bracket = true) (hs : s.target.Settled)
    (hd : s.target.debugMode = true ∨ s.debugAutoEnable = true) (hc : HaltDistinct s.cfg)
    (hwf : p.write = true → s.target.wf) : ∃ ph evs g₀ m l g,
    p.program.run s = .ok (if p.write then .void else .bytes (s.result ++ (List.range p.count).flatMap (p.out g₀)))
      (State.after { s with autoTaken := s.debugAutoEnable, phase := ph, haltedFlag := false, bracketOpen := false,
                            result := s.result ++ (List.range p.count).flatMap (p.out g₀) } evs g) ∧
    g₀.SameCore (((s.turned (if s.target.debugMode then 2 else 5)).inDebug true).inHalt true) ∧
    p.Reached g₀ p.count m ∧ (∀ w ∈ l, w ∈ s.mcu) ∧
    g.SameCore (((m.inHalt false).turns l).inDebug (!s.debugAutoEnable)) := by
  obtain ⟨ph, b, g₀, opened, hg₀⟩ := Plan.opening_bracket hp ho hck hb hs hd hc
  have len : (enableEvents s.cfg s.target.debugMode b).length + 1 = if s.target.debugMode then 2 else 5 := by
    cases s.target.debugMode <;> rfl
  rw [len] at hg₀
  generalize enableEvents _ _ b ++ _ = evs₁ at opened
  have halted : g₀.mcuHalted = true := hg₀.mcuHalted
  have answers : g₀.Answers := ⟨hg₀.debugMode, hg₀.settled (State.turned_settled hs _)⟩
  have wf (hw : p.write = true) : g₀.wf := hg₀.wf ((s.target.turns_wf _ (hwf hw)))
  generalize hs1 : State.after _ evs₁ g₀ = s1 at opened
  have target : s1.target = g₀ := by rw [← hs1]; rfl
  obtain ⟨ph', m, moved, hm⟩ := Plan.transfers_debug hp (s := s1) ⟨by rw [← hs1]; exact ho, .inr (target ▸ halted)⟩
    (target ▸ answers) (fun _ => target ▸ halted) (target ▸ wf) le_rfl
  rw [target] at moved hm
  generalize hs2 : State.after _ _ m = s2 at moved
  generalize (List.range p.count).flatMap (p.moves g₀) = evs₂ at hs2
  generalize hout : (List.range p.count).flatMap (p.out g₀) = out at hs2
  have hs2 : s2 = State.after { s with autoTaken := s.debugAutoEnable, phase := ph', haltedFlag := true, bracketOpen := true,
                                       result := s.result ++ out } (evs₁ ++ evs₂) m := by
    rw [← hs2, ← hs1]
    simp [State.after]
  have target₂ : s2.target = m := by rw [hs2]; rfl
  obtain ⟨ph₃, g₃, closed, hg₃⟩ := Plan.closed_bracket (p := p) (s := s2) (by rw [hs2]; exact ho) (by rw [hs2]; rfl)
    (by rw [hs2]; exact hpe) (target₂ ▸ hm.answers) (target₂ ▸ hm.mcuHalted.trans halted) (by rw [hs2]; exact hc)
  generalize hs3 : State.after _ _ g₃ = s3 at closed
  have target₃ : s3.target = g₃ := by rw [← hs3]; rfl
  rw [target₂] at hg₃
  have answers₃ : g₃.Answers := Target.Answers.of_sameCore_turns (t := m.inHalt false) hm.answers hg₃
  obtain ⟨n, evs₄, g, exit, hg⟩ := Plan.exit_turned hp (s := s3) (by rw [← hs3, hs2]; exact ho) (target₃ ▸ answers₃)
    (by rw [← hs3]; rfl)
  have auto : s3.autoTaken = s.debugAutoEnable := by rw [← hs3, hs2]; rfl
  have final : s3.after evs₄ g = State.after
      { s with autoTaken := s.debugAutoEnable, phase := ph₃, haltedFlag := false, bracketOpen := false, result := s.result ++ out }
      (evs₁ ++ evs₂ ++ [wOk .dbg [0x80, 0x00], .d 100] ++ evs₄) g := by
    rw [← hs3, hs2]
    simp [State.after]
    omega
  refine ⟨ph₃, evs₁ ++ evs₂ ++ [wOk .dbg [0x80, 0x00], .d 100] ++ evs₄, g₀, m,
    (s2.mcu.drop 1).take 1 ++ s3.mcu.take n, g, ?_, hg₀, hm, ?_, ?_⟩
  rotate_left 2
  · rw [Target.turns_append, ← auto]
    refine hg.trans (Target.SameCore.inDebug ?_ _)
    rw [State.turned, target₃]
    exact hg₃.turns _
  · rw [Plan.program_opening, opened, Res.bind_ok, moved, closed, Res.bind_ok, exit, Res.bind_ok, final, hout]
    rfl
  · rw [← hs3, hs2]
    intro w hw
    simp only [State.after_mcu] at hw
    rcases List.mem_append.1 hw with hw | hw
    · exact List.mem_of_mem_drop (List.mem_of_mem_drop (List.mem_of_mem_take hw))
    · exact List.mem_of_mem_drop (List.mem_of_mem_drop (List.mem_of_mem_take hw))

end Sys2Proof.Machine
end

section
/-! PROOF. XDATA written and read back, and the bracket against the MCU (R60, R73, R74). -/

namespace Sys2Proof.Machine

/-! What a range request on the debug interface asks of its plan. -/

/-- The length a dump asks for is the length its plan has (R156). -/
theorem dumpLength_eq (a : Int) (n e : Option Int) : dumpLength a n e = dumpAsks a n e := by
  cases n <;> cases e <;> rfl

/-- A list walked with its indices is walked by its indices. -/
theorem mapIdx_flatten (vs : List Byte) (f : Nat → Byte → List Event) :
    (vs.mapIdx f).flatten = (List.range vs.length).flatMap fun k => f k (vs.getD k 0) := by
  rw [List.flatMap_def]
  congr 1
  refine List.ext_getElem (by simp) fun k hk _ => ?_
  have : k < vs.length := by simpa using hk
  simp [List.getD_eq_getElem?_getD, this]

section plan
variable {i : Instr} {q : Latches} {p : Plan} (hq : latchesOf i = some q) (hp : q.plan = some p) (hsp : p.space ≠ .isp)
include hq hp hsp

/-- Where a plan stores what the statements say its request writes. -/
theorem writesTo_of_plan (hpay : p.write = true → p.payload ≠ none) :
    writesTo i = if p.write then some (p.loc, p.values) else none := by
  cases i <;> cases hq <;> cases hp <;> try exact absurd rfl hsp
  case xdataWrite a v h =>
    cases v with
    | none => exact absurd rfl (hpay rfl)
    | some vs => rfl
  case eepromWrite a v t h =>
    cases v with
    | none => exact absurd rfl (hpay rfl)
    | some vs => rfl
  all_goals rfl

/-- The events of a request's transfers are those of its plan's. -/
theorem transferEvents_of_plan (t : Target) : transferEvents t i = (List.range p.count).flatMap (p.moves t) := by
  rw [funext (p.moves_eq hsp t)]
  cases i <;> cases hq <;> cases hp <;> try exact absurd rfl hsp
  case xdataRead => rfl
  case eepromRead => rfl
  case xdataDump a n e h => rw [transferEvents, ← dumpLength_eq]; rfl
  case eepromDump a n e t h => rw [transferEvents, ← dumpLength_eq]; rfl
  case xdataWrite a v h => exact mapIdx_flatten ..
  case eepromWrite a v t h => exact mapIdx_flatten ..
end plan

/-- The plan `p` of a debug range request whose checks pass, and how the statements' words for the request say the same. -/
structure Plan.Serves (p : Plan) (i : Instr) (q : Latches) : Prop where
  latches : latchesOf i = some q
  plan : q.plan = some p
  inRange : p.Debug
  check : ∀ s, p.check.run s = .ok () s
  bracket : p.bracket = bracketed i
  halt : p.halt = bracketed i
  writes : writesTo i = if p.write then some (p.loc, p.values) else none

theorem plan_serves {i : Instr} {sp : Space} {a n : Int} {w : Bool} (h : rangeAsked i = some (sp, a, some n, w)) (hsp : sp ≠ .isp)
    (hw : InWindow 0xffff a n) : ∃ q, ∃ p : Plan, p.Serves i q ∧ p.space = sp ∧ p.write = w ∧ p.start = a ∧ p.length = n := by
  obtain ⟨q, hq, hplan, hb, hpay, -⟩ := plan_of_asked h
  have halt : q.halt = bracketed i := by rw [hb]; cases sp <;> simp at hsp ⊢
  have values (hwr : w = true) : (q.payload.getD []).length = n.toNat ∧ q.payload ≠ none := by
    have pay := hpay hwr
    cases e : q.payload with
    | none => simp [e] at pay
    | some l => simp [e] at pay; simp [pay]
  have window : validate sp a n = none := by
    refine validate_window ?_ hw
    cases sp
    · exact absurd rfl hsp
    · rfl
    · rfl
  exact ⟨q, _, ⟨hq, hplan, ⟨hsp, hw, fun hwr => (values hwr).1⟩, Plan.check_ok (fun hwr => (values hwr).2) window, hb.symm, halt,
    writesTo_of_plan hq hplan hsp fun hwr => (values hwr).2⟩, rfl, rfl, rfl, rfl⟩

theorem Plan.Serves.exec {p : Plan} {i : Instr} {q : Latches} (h : p.Serves i q) {s : State} (hl : s.life = .ready) :
    exec i s = (p.program.run (s.accept q)).finish := exec_range h.latches h.plan s hl

/-- The bytes a read brings. -/
theorem Plan.out_read {p : Plan} (hw : p.write = false) (t : Target) (k : Nat) :
    (List.range k).flatMap (p.out t) = (List.range k).map fun j => t.peek (p.loc j) := by
  have out : p.out t = fun j => [t.peek (p.loc j)] := by funext j; simp [Plan.out, hw]
  rw [out, List.map_eq_flatMap]

/-- XDATA holds the bytes of a list from an address of the window on. -/
def Target.HoldsXdata (t : Target) (a : Int) (vs : List Byte) : Prop :=
  ∀ k (h : k < vs.length), t.peek (.xdata (addr16 (a + k))) = vs[k]

theorem Target.HoldsXdata.congr {g t : Target} {a : Int} {vs : List Byte} (h : t.HoldsXdata a vs) (hg : g.xdata = t.xdata) :
    g.HoldsXdata a vs := fun k hk => by
  rw [← h k hk]
  simp only [Target.peek, hg]

/-- A location the MCU does not write keeps its byte through its turns. -/
theorem Target.turns_peek {x : Loc} {l : List (List (Addr16 × Byte))} (h : ∀ ws ∈ l, ∀ w ∈ ws, x ≠ .xdata w.1) (t : Target) :
    (t.turns l).peek x = t.peek x := by
  have pokes (ws : List (Addr16 × Byte)) (hw : ∀ w ∈ ws, x ≠ .xdata w.1) (t : Target) : (t.pokeXdata ws).peek x = t.peek x := by
    induction ws generalizing t with
    | nil => rfl
    | cons w ws ih =>
      exact (ih (fun v hv => hw v (by simp [hv])) _).trans (Target.peek_poke_other _ _ _ _ (hw w (by simp)))
  induction l generalizing t with
  | nil => rfl
  | cons ws l ih =>
    rw [Target.turns_cons, ih (fun v hv => h v (by simp [hv]))]
    unfold Target.mcuTurn
    split
    · rfl
    · exact pokes ws (h ws (by simp)) t

/-- An unbracketed request with no policy ends with its transfers. -/
theorem Plan.program_of_transfers {p : Plan} (hsp : p.space ≠ .isp) {s s₁ s₂ : State} (opened : p.opening.run s = .ok () s₁)
    (moved : (p.transfers p.count 0).run s₁ = .ok () s₂) (hop : s₂.bracketOpen = false) (hauto : s₂.autoTaken = false) :
    p.program.run s = .ok (if p.write then .void else .bytes s₂.result) s₂ := by
  rw [Plan.program_opening, opened, Res.bind_ok, moved, Plan.closed, hop, if_neg (by simp), Res.bind_ok, Plan.exit_debug_run hsp,
    hauto, if_neg (by simp), Res.bind_ok]

/-- An unbracketed request that succeeds with no policy, where the MCU cannot write. -/
theorem Plan.program_plain {p : Plan} (hp : p.Debug) {s : State} (h : s.Quiet) (hop : s.bracketOpen = false)
    (hck : ∀ s, p.check.run s = .ok () s) (hb : p.bracket = false) (ha : s.target.Answers) (hpol : s.debugAutoEnable = false)
    (hh : p.halt = false) (hwf : p.write = true → s.target.wf) : ∃ ph evs g₀ m,
    p.program.run s = .ok (if p.write then .void else .bytes (s.result ++ (List.range p.count).flatMap (p.out g₀)))
      (State.after { s with autoTaken := false, phase := ph, result := s.result ++ (List.range p.count).flatMap (p.out g₀) } evs m) ∧
    g₀.SameCore s.target ∧ p.Reached g₀ p.count m := by
  obtain ⟨ph, b, g₀, opened, hg₀⟩ := Plan.opening_plain hp h.1 hck hb ha.2 (.inl ha.1)
  generalize enableEvents _ _ b = evs₁ at opened hg₀
  rw [h.turned, Target.inDebug_self ha.1] at hg₀
  generalize hs1 : State.after _ evs₁ g₀ = s1 at opened
  have quiet : s1.Quiet := by rw [← hs1]; exact h.after (s := s) _ hg₀.mcuHalted
  have target : s1.target = g₀ := by rw [← hs1]; rfl
  obtain ⟨ph', m, moved, hm⟩ := Plan.transfers_debug hp quiet (target ▸ hg₀.answers ha) (by simp [hh])
    (fun hw => target ▸ hg₀.wf (hwf hw)) le_rfl
  rw [target] at moved hm
  generalize hs2 : State.after _ _ m = s2 at moved
  have open₂ : s2.bracketOpen = false := by rw [← hs2, ← hs1]; exact hop
  have auto₂ : s2.autoTaken = false := by rw [← hs2, ← hs1]; exact hpol
  have final : s2 = State.after { s with autoTaken := false, phase := ph', result := s.result ++ (List.range p.count).flatMap (p.out g₀) }
      (evs₁ ++ (List.range p.count).flatMap (p.moves g₀)) m := by
    rw [← hs2, ← hs1, hpol]
    simp [State.after]
  refine ⟨ph', evs₁ ++ (List.range p.count).flatMap (p.moves g₀), g₀, m, ?_, hg₀, hm⟩
  rw [Plan.program_of_transfers hp.space opened moved open₂ auto₂, final]
  rfl

/-- What a write has stored, a request's own words. -/
theorem Plan.Serves.holds {p : Plan} {a : Int} {vs : List Byte} {halt : Bool} {q : Latches}
    (h : p.Serves (.xdataWrite a (some vs) halt) q) (hw : p.write = true) {t g : Target} (hg : p.Reached t p.count g) :
    g.HoldsXdata a vs := by
  have bytes := hg.bytes
  have writes := h.writes
  rw [hw, if_pos rfl] at bytes writes
  obtain ⟨loc, values⟩ := Prod.mk.inj (Option.some.inj writes)
  rw [← h.inRange.values hw, List.take_length, ← loc, ← values] at bytes
  exact bytes.1

/-- What a read of these bytes brings. -/
theorem Target.HoldsXdata.out {p : Plan} {a : Int} {vs : List Byte} {t : Target} (h : t.HoldsXdata a vs) (hsp : p.space = .xdata)
    (hw : p.write = false) (ha : p.start = a) (hn : p.length = vs.length) :
    (List.range p.count).flatMap (p.out t) = vs := by
  have loc (k : Nat) : p.loc k = .xdata (addr16 (a + k)) := by simp only [Plan.loc, hsp, Plan.addr, ha]
  have count : p.count = vs.length := by simp [Plan.count, transferCount, hn]
  rw [Plan.out_read hw, count]
  refine List.ext_getElem (by simp) fun k _ hk => ?_
  simpa [loc] using h k hk

/-- A request on `s` has been answered by `r`: what `t` keeps. -/
structure State.AnsweredBy (s : State) (r : Response) (t : State) : Prop where
  life : t.life = .ready
  responses : t.responses = s.responses ++ [r]
  oracle : t.oracle = s.oracle
  cfg : t.cfg = s.cfg
  debugAutoEnable : t.debugAutoEnable = s.debugAutoEnable
  mcu : ∃ n, t.mcu = s.mcu.drop n

/-- The result of a plan's request whose transfers start from `t`. -/
def Plan.answer (p : Plan) (t : Target) : Result := if p.write then .void else .bytes ((List.range p.count).flatMap (p.out t))

/-- An unbracketed debug request where the MCU cannot write, debug mode on and no policy. -/
theorem Plan.Serves.exec_plain {p : Plan} {i : Instr} {q : Latches} (h : p.Serves i q) {s : State} (hl : s.life = .ready)
    (hs : s.Quiet) (ha : s.target.Answers) (hpol : s.debugAutoEnable = false) (hb : bracketed i = false)
    (hwf : p.write = true → s.target.wf) : ∃ t g₀, Machine.exec i s = .next t ∧ s.AnsweredBy (.ok (p.answer g₀)) t ∧
      g₀.SameCore s.target ∧ p.Reached g₀ p.count t.target := by
  obtain ⟨ph, evs, g₀, m, run, hg, hm⟩ := Plan.program_plain (s := s.accept q) h.inRange hs rfl h.check (h.bracket.trans hb) ha hpol
    (h.halt.trans hb) hwf
  rw [h.exec hl, run]
  exact ⟨_, g₀, rfl, ⟨rfl, rfl, rfl, rfl, rfl, evs.length, rfl⟩, hg, hm⟩

/-- A bracketed debug request beside any MCU, the policy taken or debug mode on. -/
theorem Plan.Serves.exec_bracket {p : Plan} {i : Instr} {q : Latches} (h : p.Serves i q) {s : State} (hl : s.life = .ready)
    (ho : s.oracle = []) (hs : s.target.Settled) (hd : s.target.debugMode = true ∨ s.debugAutoEnable = true)
    (hc : HaltDistinct s.cfg) (hb : bracketed i = true) (hwf : p.write = true → s.target.wf) : ∃ t g₀ m l,
    Machine.exec i s = .next t ∧ s.AnsweredBy (.ok (p.answer g₀)) t ∧
      g₀.SameCore (((s.turned (if s.target.debugMode then 2 else 5)).inDebug true).inHalt true) ∧
      p.Reached g₀ p.count m ∧ (∀ w ∈ l, w ∈ s.mcu) ∧
      t.target.SameCore (((m.inHalt false).turns l).inDebug (!s.debugAutoEnable)) := by
  obtain ⟨ph, evs, g₀, m, l, g, run, hg₀, hm, hl', hg⟩ := Plan.program_bracket (s := s.accept q) h.inRange ho rfl h.check
    (h.bracket.trans hb) hs hd hc hwf
  rw [h.exec hl, run]
  exact ⟨_, g₀, m, l, rfl, ⟨rfl, rfl, rfl, rfl, rfl, evs.length, rfl⟩, hg₀, hm, hl', hg⟩

/-- Settles O51: both requests run where the MCU cannot write. -/
theorem roundTripWhileHalted : Obligations.RoundTripWhileHalted := by
  unfold Obligations.RoundTripWhileHalted
  intro s a vs hserv hm hwf ha hpol hw
  obtain ⟨q, p, hp, -, hwr, -⟩ := plan_serves (i := .xdataWrite a (some vs) false) rfl nofun hw
  obtain ⟨t, g, write, ht, hg, hr⟩ := hp.exec_plain hserv.1 hserv.quiet ha hpol rfl fun _ => hwf
  have halted : t.target.mcuHalted = true := hr.mcuHalted.trans (hg.mcuHalted.trans hm)
  obtain ⟨q', p', hp', hsp, hrd, hst, hlen⟩ := plan_serves (i := .xdataRead a vs.length false) rfl nofun hw
  obtain ⟨t', g', read, ht', hg', -⟩ := hp'.exec_plain ht.life ⟨ht.oracle.trans hserv.2.1, .inr halted⟩ hr.answers
    (ht.debugAutoEnable.trans hpol) rfl (by simp [hrd])
  have bytes := ((hp.holds hwr hr).congr hg'.xdata).out hsp hrd hst hlen
  refine ⟨t, t', write, read, ?_⟩
  simp [ht'.responses, ht.responses, Plan.answer, hwr, hrd, bytes]

/-- Settles O52: the MCU's turns around the brackets leave the payload's locations alone (`Target.turns_peek`). -/
theorem roundTripUnderBrackets : Obligations.RoundTripUnderBrackets := by
  unfold Obligations.RoundTripUnderBrackets
  intro s a vs hl ho hmcu hwf hs hd hc hw
  have apart {l : List (List (Addr16 × Byte))} (hl : ∀ ws ∈ l, ws ∈ s.mcu) {t : Target} (ht : t.HoldsXdata a vs) :
      (t.turns l).HoldsXdata a vs := fun k hk => by
    rw [Target.turns_peek (fun ws hws w hmem => ?_), ht k hk]
    exact fun e => hmcu ws (hl ws hws) w hmem k hk (Loc.xdata.inj e).symm
  obtain ⟨q, p, hp, -, hwr, -⟩ := plan_serves (i := .xdataWrite a (some vs) true) rfl nofun hw
  obtain ⟨t, g, m, l, write, ht, hg, hr, hmem, htg⟩ := hp.exec_bracket hl ho hs hd hc rfl fun _ => hwf
  have holds : t.target.HoldsXdata a vs :=
    Target.HoldsXdata.congr (apart hmem ((hp.holds hwr hr).congr (g := m.inHalt false) rfl)) htg.xdata
  obtain ⟨q', p', hp', hsp, hrd, hst, hlen⟩ := plan_serves (i := .xdataRead a vs.length true) rfl nofun hw
  have settled : t.target.Settled := htg.settled ((Target.Settled.turns (t := m.inHalt false) hr.answers.2 l))
  have on : t.target.debugMode = true ∨ t.debugAutoEnable = true := by
    rw [htg.debugMode, ht.debugAutoEnable]
    cases s.debugAutoEnable <;> simp [Target.inDebug]
  obtain ⟨t', g', -, -, read, ht', hg', -⟩ := hp'.exec_bracket ht.life (ht.oracle.trans ho) settled on (ht.cfg ▸ hc) rfl
    (by simp [hrd])
  have later : ∀ ws ∈ t.mcu, ws ∈ s.mcu := by
    obtain ⟨n, hn⟩ := ht.mcu
    rw [hn]
    exact fun ws h => List.mem_of_mem_drop h
  have kept := Target.HoldsXdata.congr (apart (fun ws h => later ws (List.mem_of_mem_take h)) holds) hg'.xdata
  have bytes := kept.out hsp hrd hst hlen
  refine ⟨t, t', write, read, ?_⟩
  simp [ht'.responses, ht.responses, Plan.answer, hwr, hrd, bytes]

/-! The MCU running beside an unbracketed read (R71, R73). -/

theorem Target.pokeXdata_append (t : Target) (ws ws' : List (Addr16 × Byte)) :
    t.pokeXdata (ws ++ ws') = (t.pokeXdata ws).pokeXdata ws' := List.foldl_append

/-- The turns come one by one. -/
theorem State.turned_succ (s : State) (n : Nat) : s.turned (n + 1) = (s.turned n).mcuTurn (s.mcu.getD n []) := by
  rw [State.turned, List.take_add_one, Target.turns_append, List.getD_eq_getElem?_getD, State.turned]
  cases s.mcu[n]? <;> simp

/-- While it runs the MCU does all its writes. -/
theorem State.turned_running {s : State} (h : s.target.mcuHalted = false) (n : Nat) :
    s.turned n = s.target.pokeXdata ((List.range n).flatMap fun k => s.mcu.getD k []) := by
  induction n with
  | zero => rfl
  | succ n ih =>
    have running : (s.turned n).mcuHalted = false := (Target.turns_mcuHalted ..).trans h
    rw [State.turned_succ, Target.mcuTurn, running, if_neg (by simp), ih, ← Target.pokeXdata_append, List.range_succ,
      List.flatMap_append, List.flatMap_singleton]

/-- One XDATA read transfer without the bracket: the byte is read after three turns of the MCU, whose writes the setup does not hide. -/
theorem readXdata_turned {s : State} (ho : s.oracle = []) (ha : s.target.Answers) (a : Int) : ∃ evs g,
    (readXdata a false).run s = .ok ((s.turned 3).xdataAt a) (s.after evs g) := by
  have settled₁ : (s.turned 1).Settled := State.turned_settled ha.2 1
  have command := transact_of_calm ho (s.calm_quiet.xdataRd ⟨(s.turned_debugMode 1).trans ha.1, settled₁⟩ (addr16 a))
  generalize hms : (if s.calm.target.mcuHalted then 0 else 10) = ms at command
  have short : ms ≤ 10 := by rw [← hms]; split <;> simp
  generalize hport : Target.setup _ _ ms = port at command
  have paid : (port.wait 10).SameCore (s.turned 1) := hport ▸ Target.setup_settled settled₁ _ short
  have slept : sleep 10 (s.after [wOk .dbg [0x3a, lo8 (addr16 a), hi8 (addr16 a)]] port) =
      s.after [wOk .dbg [0x3a, lo8 (addr16 a), hi8 (addr16 a)], .d 10] ((port.wait 10).turns ((s.mcu.drop 1).take 1)) := by
    rw [sleep_turned, State.after_after, Target.turns_wait]
    rfl
  generalize hs3 : s.after _ (Target.turns _ _) = s₃ at slept
  have core : s₃.calm.target.SameCore (s.turned 3) := by
    rw [State.turned_add s 2 1, State.turned_add s 1 1, ← hs3]
    exact (paid.turns _).turns _
  have setup : s₃.calm.target.readSetup = some (.xdata (addr16 a)) := by
    simp [← hs3, State.calm, State.turned, ← hport, Target.setup]
  have due : s₃.calm.target.owedRead = 0 := by
    simp [← hs3, State.calm, State.turned, ← hport, Target.setup, short]
  have answers : s₃.calm.target.Answers :=
    core.answers ⟨(s.turned_debugMode 3).trans ha.1, State.turned_settled ha.2 3⟩
  have read := transact_of_calm (s := s₃) (by rw [← hs3]; exact ho) (s₃.calm_quiet.dbgData answers setup due)
  have byte : s₃.calm.target.peek (.xdata (addr16 a)) = (s.turned 3).xdataAt a := core.peek _
  rw [byte, ← hs3, State.after_after] at read
  have pause : settled false (s.after [wOk .dbg [0x3a, lo8 (addr16 a), hi8 (addr16 a)]] port) = s₃ := slept
  rw [readXdata_run, command, Res.bind_ok, pause, ← hs3, read]
  exact ⟨_, _, rfl⟩

/-- An unbracketed read of one XDATA byte with no policy, beside an MCU that may run. -/
theorem exec_xdataRead_turned {s : State} (hl : s.life = .ready) (ho : s.oracle = []) (ha : s.target.Answers)
    (hpol : s.debugAutoEnable = false) {a : Int} (hw : InWindow 0xffff a 1) : ∃ t,
    exec (.xdataRead a 1 false) s = .next t ∧ t.responses = s.responses ++ [.ok (.bytes [(s.turned 4).xdataAt a])] := by
  obtain ⟨q, p, hp, hsp, hrd, hst, hlen⟩ := plan_serves (i := .xdataRead a 1 false) rfl nofun hw
  obtain ⟨ph, b, g, opened, hg⟩ := Plan.opening_plain (s := s.accept q) hp.inRange ho hp.check hp.bracket ha.2 (.inl ha.1)
  rw [State.accept_target, ha.1] at opened hg
  generalize hs1 : State.after _ _ g = s₁ at opened
  have core : g.SameCore (s.turned 1) := (Target.inDebug_self ((s.turned_debugMode 1).trans ha.1)) ▸ hg
  have answers : s₁.target.Answers := by
    rw [← hs1]
    exact core.answers ⟨(s.turned_debugMode 1).trans ha.1, State.turned_settled ha.2 1⟩
  obtain ⟨evs, g', read⟩ := readXdata_turned (s := s₁) (by rw [← hs1]; exact ho) answers a
  have count : p.count = 1 := by simp [Plan.count, transferCount, hlen]
  have addr : p.addr 0 = a := by simp [Plan.addr, hst]
  have halt : p.halt = false := hp.halt
  have moved : (p.transfers p.count 0).run s₁ = .ok () (p.move true ((s₁.after evs g').push ((s₁.turned 3).xdataAt a))) := by
    rw [count, Plan.transfers_succ_run, Plan.transfer_run, if_neg (by simp [hrd]), readXfer, hsp]
    dsimp only
    rw [addr, halt, read]
    rfl
  have run := Plan.program_of_transfers hp.inRange.space opened moved (by rw [← hs1]; rfl) (by rw [← hs1]; exact hpol)
  have byte : (s₁.turned 3).xdataAt a = (s.turned 4).xdataAt a := by
    rw [State.turned_add s 1 3, ← hs1]
    exact (core.turns _).peek _
  refine ⟨_, by rw [hp.exec hl, run]; rfl, ?_⟩
  rw [byte, ← hs1, hrd]
  rfl

/-- Settles O53: the bracketed read starts from the target after two turns (`Plan.Serves.exec_bracket`), the other read takes its byte
after four (`exec_xdataRead_turned`). -/
theorem theBracketExcludesTheMcu : Obligations.TheBracketExcludesTheMcu := by
  unfold Obligations.TheBracketExcludesTheMcu
  intro s a hl ho ha hpol
  refine ⟨fun i n hi hc hw => ?_, fun hm hw => ?_⟩
  · have asked : rangeAsked i = some (.xdata, a, some n, false) ∧ bracketed i = true := by
      cases i <;> cases hi <;> exact ⟨rfl, rfl⟩
    obtain ⟨q, p, hp, hsp, hrd, hst, hlen⟩ := plan_serves asked.1 nofun hw
    obtain ⟨t, g, -, -, read, ht, hg, -⟩ := hp.exec_bracket hl ho ha.2 (.inl ha.1) hc asked.2 (by simp [hrd])
    refine ⟨t, read, ht.responses.trans ?_⟩
    have peek (x : Loc) : g.peek x = (s.turned 2).peek x := by
      rw [ha.1, if_pos rfl, Target.inDebug_self ((s.turned_debugMode 2).trans ha.1)] at hg
      exact (hg.peek x).trans (by cases x <;> rfl)
    have loc (k : Nat) : p.loc k = .xdata (addr16 (a + k)) := by simp only [Plan.loc, hsp, Plan.addr, hst]
    rw [Plan.answer, hrd, if_neg (by simp), Plan.out_read hrd, Plan.count, transferCount, hlen]
    simp only [peek, loc, State.turned_succ, State.turned_zero]
    rfl
  · obtain ⟨t, read, response⟩ := exec_xdataRead_turned hl ho ha hpol hw
    refine ⟨t, read, response.trans ?_⟩
    rw [State.turned_running hm]
    simp [List.range_succ]

end Sys2Proof.Machine
end

section
/-! PROOF. A halted MCU is ignored (R73): a program run beside two MCUs that are halted does the same beside both. -/

namespace Sys2Proof.Machine

/-- The same state beside another MCU. -/
def State.besideMcu (s : State) (m : List (List (Addr16 × Byte))) : State := { s with mcu := m }

/-- The reference device answers, the MCU is halted, no bracket is open, and the next DBG frame has to wait for at most `ms` (R71). -/
structure State.Deaf (c : Params) (ms : Nat) (s : State) : Prop where
  oracle : s.oracle = []
  mcuHalted : s.target.mcuHalted = true
  owedCmd : s.target.owedCmd ≤ ms
  owedMem : s.target.owedMem ≤ ms
  cfg : s.cfg = c
  bracketOpen : s.bracketOpen = false

/-- An operation that completes leaves such a state, and one that fails leaves no bracket open. -/
def Res.Deaf (c : Params) (ms : Nat) {α : Type} : Res α → Prop
  | .ok _ s => s.Deaf c ms
  | .raised _ s => s.bracketOpen = false
  | .hung _ => True
  | .fault _ => True
  | .refused _ => True

/-- The program does the same beside every MCU, from a state that owes at most `a` to one that owes at most `b`. -/
def Prog.Blind {α : Type} (c : Params) (a b : Nat) (p : Prog α) : Prop :=
  ∀ s, s.Deaf c a → (p.run s).Deaf c b ∧ ∀ m, ∃ m', p.run (s.besideMcu m) = (p.run s).onState (·.besideMcu m')

/-- A frame that neither sets a halted MCU running nor makes the next frame wait for more than `ms`. -/
def SparesMcu (c : Params) (ms : Nat) (x : Txn) : Prop := ∀ (t g : Target) (o : Answer), t.mcuHalted = true → t.InTime →
  t.reply c x = some (o, g) → g.mcuHalted = true ∧ g.owedCmd ≤ ms ∧ g.owedMem ≤ ms

section transact
variable {c : Params} {x : Txn} {s : State}

theorem State.Deaf.turned {ms : Nat} (h : s.Deaf c ms) (n : Nat) : s.turned n = s.target := Target.turns_halted h.mcuHalted _

/-- A transaction beside another MCU, both halted. -/
theorem State.Deaf.transact_beside {ms : Nat} (h : s.Deaf c ms) (m : List (List (Addr16 × Byte))) :
    transact x (s.besideMcu m) = (transact x s).onState (·.besideMcu m.tail) := by
  have same : (s.besideMcu m).calm = s.calm := by
    rw [State.calm, State.calm, h.turned, show (s.besideMcu m).turned 1 = s.target from Target.turns_halted h.mcuHalted _]
    rfl
  rw [transact_device x (s := s) (by simp [h.oracle]), transact_device x (s := s.besideMcu m) (by simp [State.besideMcu, h.oracle]), same]
  cases transact x s.calm <;> rfl

/-- Whatever a sparing frame ends in, the MCU is halted still. -/
theorem SparesMcu.ends {ms : Nat} (hx : SparesMcu c ms x) (h : s.Deaf c 0) {t : State}
    (ht : (∃ rs, transact x s = .ok rs t) ∨ ∃ e, transact x s = .raised e t) : t.Deaf c ms := by
  have fate : transact x s = (transactAs .device x s.calm).onState (·.beside s.mcu.tail s.oracle.tail) := by
    rw [transact_fate, h.oracle]
    rfl
  have found : s.calm.target.unsettle.mcuHalted = true ∧ s.calm.target.unsettle.InTime := by
    rw [show s.calm.target = s.target from h.turned 1]
    exact ⟨by simp [h.mcuHalted], by simpa using h.owedCmd, by simpa using h.owedMem⟩
  have oracle : s.oracle.tail = [] := by simp [h.oracle]
  rw [fate] at ht
  cases answer : s.calm.target.answer s.calm.cfg x with
  | none => simp [transactAs, answer, Res.onState] at ht
  | some og =>
    obtain ⟨halted, cmd, mem⟩ := hx s.calm.target.unsettle og.2 og.1 found.1 found.2 (h.cfg ▸ answer)
    simp only [transactAs, answer] at ht
    rcases State.conclude_cases s.calm x (outcomeOf x og.1) og.2 with ⟨rs, -, e⟩ | ⟨k, -, e⟩ | ⟨-, e⟩ <;> rw [e] at ht <;>
      rcases ht with ⟨_, ht⟩ | ⟨_, ht⟩ <;> cases ht
    · exact ⟨oracle, halted, cmd, mem, h.cfg, h.bracketOpen⟩
    · exact ⟨oracle, halted, cmd, mem, h.cfg, h.bracketOpen⟩
end transact

/-! The frames a debug access and an ISP read send (R76). -/

section frames
variable (c : Params)

theorem sparesMcu_of_keeps {x : Txn} (h : ∀ (t g : Target) (o : Answer), t.reply c x = some (o, g) →
    g.mcuHalted = t.mcuHalted ∧ g.owedCmd = t.owedCmd ∧ g.owedMem = t.owedMem) : SparesMcu c 0 x := by
  intro t g o hm ht e
  obtain ⟨halted, cmd, mem⟩ := h t g o e
  exact ⟨halted.trans hm, (cmd.trans ht.1).le, (mem.trans ht.2).le⟩

theorem sparesMcu_ispQuery : SparesMcu c 0 txIspQuery :=
  sparesMcu_of_keeps c fun _ _ _ e => by cases e; exact ⟨rfl, rfl, rfl⟩

theorem sparesMcu_ispPtr (a : Byte) : SparesMcu c 0 (txIspPtr a) :=
  sparesMcu_of_keeps c fun _ _ _ e => by cases e; exact ⟨rfl, rfl, rfl⟩

theorem sparesMcu_ispData : SparesMcu c 0 txIspData :=
  sparesMcu_of_keeps c fun _ _ _ e => by cases e; exact ⟨rfl, rfl, rfl⟩

theorem sparesMcu_dbgEn : SparesMcu c 50 (txDbgEn c) := by
  intro t g o hm ht e
  have ddc : t.ddcFrame c c.enable.bytes = { t with debugMode := true, owedCmd := max t.owedCmd tMode } := if_pos rfl
  obtain rfl : t.ddcFrame c c.enable.bytes = g := (Prod.mk.inj (Option.some.inj e)).2
  rw [ddc]
  exact ⟨hm, by simp [ht.1, tMode], by simp [ht.2]⟩

/-- A read of the debug interface changes the data port at most. -/
theorem sparesMcu_dbgData : SparesMcu c 0 txDbgData := by
  intro t g o hm ht e
  have core : g.SameCore t := by
    simp only [txDbgData, Target.reply, Target.dbgRead, not_not.2 ht, if_false] at e
    split at e
    · cases e; exact .refl _
    · obtain ⟨b, -, hg⟩ := t.dbgData_cases
      have e' : t.dbgData 1 = (o, g) := by simpa [dbgReadPrefix] using e
      rwa [e'] at hg
  exact ⟨core.mcuHalted.trans hm, (core.owedCmd.trans ht.1).le, (core.owedMem.trans ht.2).le⟩

/-- A write to the debug interface of a target that is in time: silence, the disable sequence, or the command. -/
theorem dbgWrite_cases {t g : Target} {o : Answer} {bs : List Byte} (ht : t.InTime) (e : t.reply c (.w .dbg bs) = some (o, g)) :
    g = t ∨ (bs = c.disable.bytes ∧ g = { t with debugMode := false, owedCmd := tMode }) ∨
      (bs ≠ c.disable.bytes ∧ t.dbgCommand bs = some g) := by
  simp only [Target.reply, Target.dbgFrame, not_not.2 ht, if_false] at e
  split at e
  · cases e; exact .inl rfl
  · split at e
    · cases e; exact .inr (.inl ⟨‹_›, rfl⟩)
    · obtain ⟨g', hg, e⟩ := Option.map_eq_some_iff.1 e
      cases e
      exact .inr (.inr ⟨‹_›, hg⟩)

theorem sparesMcu_dbgDis : SparesMcu c 50 (txDbgDis c) := by
  intro t g o hm ht e
  rcases dbgWrite_cases c ht e with rfl | ⟨-, rfl⟩ | ⟨hd, -⟩
  · exact ⟨hm, by simp [ht.1], by simp [ht.2]⟩
  · exact ⟨hm, by simp [tMode], by simp [ht.2]⟩
  · exact absurd rfl hd

/-- A debug memory command is longer than the disable sequence: a setup or a store, whose delay is the one a halted MCU needs (R71). -/
theorem sparesMcu_command {ms : Nat} {bs : List Byte} (hlen : bs.length ≠ 2)
    (hc : ∀ t g : Target, t.mcuHalted = true → t.dbgCommand bs = some g → ∃ l,
      (∃ v k, k ≤ ms ∧ g = t.store l v k) ∨ ∃ k, k ≤ ms ∧ g = t.setup l k) : SparesMcu c ms (.w .dbg bs) := by
  intro t g o hm ht e
  rcases dbgWrite_cases c ht e with rfl | ⟨hd, -⟩ | ⟨-, hg⟩
  · exact ⟨hm, by simp [ht.1], by simp [ht.2]⟩
  · exact absurd (hd ▸ rfl) hlen
  · obtain ⟨l, ⟨v, k, hk, rfl⟩ | ⟨k, hk, rfl⟩⟩ := hc t g hm hg
    · exact ⟨by simp [hm], by simp [ht.1], by simpa using hk⟩
    · exact ⟨hm, by simp [Target.setup, ht.1], hk⟩

theorem sparesMcu_xdataRd (a : Addr16) : SparesMcu c 0 (txXdataRd a) :=
  sparesMcu_command c (by simp) fun t g hm e => by
    cases e
    exact ⟨_, .inr ⟨_, by simp [Target.xdataSettle, hm], rfl⟩⟩

theorem sparesMcu_xdataWr (a : Addr16) (v : Byte) : SparesMcu c 0 (txXdataWr a v) :=
  sparesMcu_command c (by simp) fun t g hm e => by
    cases e
    exact ⟨_, .inl ⟨v, _, by simp [Target.xdataSettle, hm], rfl⟩⟩

theorem sparesMcu_eeRd (a : Addr16) (t : Byte) : SparesMcu c 10 (txEeRd a t) :=
  sparesMcu_command c (by simp) fun t g hm e => by
    cases e
    exact ⟨_, .inr ⟨_, by simp [Target.eepromSettle, hm, tEeprom], rfl⟩⟩

theorem sparesMcu_eeWr (a : Addr16) (t v : Byte) : SparesMcu c 10 (txEeWr a t v) :=
  sparesMcu_command c (by simp) fun t g hm e => by
    cases e
    exact ⟨_, .inl ⟨v, _, by simp [Target.eepromSettle, hm, tEeprom], rfl⟩⟩
end frames

namespace Prog.Blind

variable {α β : Type} {c : Params} {a b d : Nat}

theorem ret (x : α) : (Prog.ret x).Blind c a a := fun _ h => ⟨h, fun m => ⟨m, rfl⟩⟩

theorem throw (e : Err) : (Prog.throw e : Prog α).Blind c a b := fun _ h => ⟨h.bracketOpen, fun m => ⟨m, rfl⟩⟩

theorem bind {p : Prog α} {k : α → Prog β} (hp : p.Blind c a b) (hk : ∀ x, (k x).Blind c b d) : (p.bind k).Blind c a d := by
  intro s h
  obtain ⟨deaf, twin⟩ := hp s h
  simp only [Prog.run_bind]
  cases e : p.run s <;> rw [e] at deaf twin
  case ok x t =>
    refine ⟨(hk x t deaf).1, fun m => ?_⟩
    obtain ⟨m', e'⟩ := twin m
    obtain ⟨m'', e''⟩ := (hk x t deaf).2 m'
    exact ⟨m'', by rw [e']; exact e''⟩
  case raised er t =>
    refine ⟨deaf, fun m => ?_⟩
    obtain ⟨m', e'⟩ := twin m
    exact ⟨m', by rw [e']; rfl⟩
  all_goals
    refine ⟨trivial, fun m => ?_⟩
    obtain ⟨m', e'⟩ := twin m
    exact ⟨m', by rw [e']; rfl⟩

theorem ite {q : Prop} [Decidable q] {p p' : Prog α} (h : q → p.Blind c a b) (h' : ¬q → p'.Blind c a b) :
    (if q then p else p').Blind c a b := by
  split
  · exact h ‹_›
  · exact h' ‹_›

/-- The program looks at the state, not at the MCU. -/
theorem get {r : State → Prog α} (h : ∀ s : State, s.cfg = c → s.bracketOpen = false → (r s).Blind c a b)
    (hr : ∀ s m, r (s.besideMcu m) = r s := by exact fun _ _ => rfl) : (Prog.get r).Blind c a b := by
  intro s hs
  obtain ⟨deaf, twin⟩ := h s hs.cfg hs.bracketOpen s hs
  refine ⟨deaf, fun m => ?_⟩
  obtain ⟨m', e⟩ := twin m
  exact ⟨m', by rw [Prog.run_get, hr, e]; rfl⟩

/-- The program writes the engine's own state, not the MCU. -/
theorem assign {f : State → State} (hf : ∀ s m, f (s.besideMcu m) = (f s).besideMcu m := by exact fun _ _ => rfl)
    (h : ∀ s, s.Deaf c a → (f s).Deaf c a := by exact fun _ h => ⟨h.1, h.2, h.3, h.4, h.5, h.6⟩) :
    (Machine.assign f).Blind c a a := fun s hs =>
  ⟨h s hs, fun m => ⟨m, congrArg (Res.ok ()) (hf s m)⟩⟩

theorem delay (ms : Nat) : (Machine.delay ms).Blind c a (a - ms) := by
  intro s h
  have slept (s : State) (hs : s.target.mcuHalted = true) : Machine.sleep ms s = s.after [.d ms] (s.target.wait ms) := by
    rw [sleep_turned, State.turned, Target.turns_halted hs]
  rw [delay_run, slept s h.mcuHalted]
  refine ⟨⟨h.oracle, h.mcuHalted, Nat.sub_le_sub_right h.owedCmd ms, Nat.sub_le_sub_right h.owedMem ms, h.cfg, h.bracketOpen⟩,
    fun m => ⟨m.drop 1, ?_⟩⟩
  rw [delay_run, slept (s.besideMcu m) h.mcuHalted]
  rfl

theorem bus {x : Txn} (hx : SparesMcu c b x) : (Machine.bus x).Blind c 0 b := by
  intro s h
  rw [bus_run]
  refine ⟨?_, fun m => ⟨m.tail, by rw [bus_run, h.transact_beside]⟩⟩
  cases e : transact x s with
  | ok rs t => exact hx.ends h (.inl ⟨rs, e⟩)
  | raised er t => exact (hx.ends h (.inr ⟨er, e⟩)).bracketOpen
  | hung t => trivial
  | fault f => trivial
  | refused r => trivial

/-! The mode gate (41_mode_gate.md). -/

theorem queryIspEnabled : Machine.queryIspEnabled.Blind c 0 0 := (bus (sparesMcu_ispQuery c)).bind fun _ => ret _

/-- A probe that fails leaves what one that succeeds leaves. -/
theorem queryDebugEnabled : Machine.queryDebugEnabled.Blind c 0 0 := by
  intro s h
  have probe : SparesMcu c 0 txDbgProbe := sparesMcu_dbgData c
  simp only [queryDebugEnabled_run, h.transact_beside]
  cases e : transact txDbgProbe s with
  | ok rs t => exact ⟨probe.ends h (.inl ⟨rs, e⟩), fun m => ⟨m.tail, rfl⟩⟩
  | raised er t =>
    have deaf := probe.ends h (.inr ⟨er, e⟩)
    cases er with
    | transportError k =>
      cases k with
      | unreachable => exact ⟨deaf, fun m => ⟨m.tail, rfl⟩⟩
      | other => exact ⟨deaf.bracketOpen, fun m => ⟨m.tail, rfl⟩⟩
    | _ => exact ⟨deaf.bracketOpen, fun m => ⟨m.tail, rfl⟩⟩
  | _ => exact ⟨trivial, fun m => ⟨m.tail, rfl⟩⟩

theorem setDebugEnabled (on force : Bool) : (Machine.setDebugEnabled on force).Blind c 0 0 := by
  have frame : SparesMcu c 50 (txDebug on c) := by
    cases on
    · exact sparesMcu_dbgDis c
    · exact sparesMcu_dbgEn c
  have write : (Prog.get fun s : State => if !on && s.haltedFlag then .throw (.invalidState .disableWhileHalted)
      else (Machine.delay tMode).bind fun _ => (Machine.bus (txDebug on s.cfg)).bind fun _ => Machine.delay tMode).Blind c 0 0 :=
    get fun s hc _ => ite (fun _ => throw _) fun _ => by
      rw [hc]
      exact (delay tMode).bind fun _ => (bus frame).bind fun _ => delay tMode
  exact ite (fun _ => write) fun _ => queryDebugEnabled.bind fun _ => ite (fun _ => ret _) fun _ => write

theorem debugGuardEnter : Machine.debugGuardEnter.Blind c 0 0 :=
  bind assign fun _ => get fun _ _ _ =>
    ite (fun _ => bind assign fun _ => setDebugEnabled true false) fun _ =>
      queryDebugEnabled.bind fun _ => ite (fun _ => ret _) fun _ => throw _

theorem debugGuardExit : Machine.debugGuardExit.Blind c 0 0 :=
  get fun _ _ _ => ite (fun _ => setDebugEnabled false false) fun _ => ret _

theorem ispGuard : Machine.ispGuard.Blind c 0 0 :=
  queryIspEnabled.bind fun _ => ite (fun _ => ret _) fun _ => throw _

/-! The transfers (R138 to R152). -/

theorem settleUnlessHalt (halt : Bool) : (Machine.settleUnlessHalt halt).Blind c 0 0 :=
  ite (fun _ => ret _) fun _ => delay (a := 0) tSettle

/-- The data read that ends a debug read transfer. -/
theorem dataRead : ((Machine.bus txDbgData).bind fun rs => .ret (rs.headD 0)).Blind c 0 0 :=
  (bus (sparesMcu_dbgData c)).bind fun _ => ret _

theorem readXfer (p : Plan) (x : Int) : (Machine.readXfer p x).Blind c 0 0 := by
  unfold Machine.readXfer
  split
  · exact (bus (sparesMcu_ispPtr c _)).bind fun _ => (bus (sparesMcu_ispData c)).bind fun _ => ret _
  · exact (bus (sparesMcu_xdataRd c _)).bind fun _ => (settleUnlessHalt _).bind fun _ => dataRead
  · exact (bus (sparesMcu_eeRd c _ _)).bind fun _ => (delay tEeprom).bind fun _ => (settleUnlessHalt _).bind fun _ => dataRead

/-- An ISP write is left out: it may be the reset command (R67). -/
theorem writeXfer {p : Plan} (hsp : p.space ≠ .isp) (x : Int) (v : Byte) : (Machine.writeXfer p x v).Blind c 0 0 := by
  unfold Machine.writeXfer
  split
  · exact absurd ‹_› hsp
  · exact (bus (sparesMcu_xdataWr c _ _)).bind fun _ => settleUnlessHalt _
  · exact (bus (sparesMcu_eeWr c _ _ _)).bind fun _ => (delay tEeprom).bind fun _ => settleUnlessHalt _

/-! The range operation without the bracket (R125). -/

theorem gate (p : Plan) : p.gate.Blind c 0 0 := by
  unfold Plan.gate
  split
  · exact ispGuard
  · exact debugGuardEnter
  · exact debugGuardEnter

theorem check (p : Plan) : p.check.Blind c 0 0 := by
  refine ite (fun _ => throw _) fun _ => ?_
  split
  · exact throw _
  · exact ret _

theorem transfer {p : Plan} (hw : p.write = true → p.space ≠ .isp) (i : Nat) : (p.transfer i).Blind c 0 0 :=
  ite (fun w => writeXfer (hw w) _ _) fun _ => (readXfer p _).bind fun _ => assign

theorem transfers {p : Plan} (hw : p.write = true → p.space ≠ .isp) (k i : Nat) : (p.transfers k i).Blind c 0 0 := by
  induction k generalizing i with
  | zero => exact ret _
  | succ k ih => exact (transfer hw i).bind fun _ => bind assign fun _ => ih (i + 1)

/-- No bracket is open, so nothing is closed. -/
theorem close {p : Plan} {body : Prog Unit} (hb : body.Blind c 0 0) : (p.close body).Blind c 0 0 := by
  intro s h
  obtain ⟨deaf, twin⟩ := hb s h
  simp only [Plan.close_run]
  cases e : body.run s <;> rw [e] at deaf twin
  case ok x t =>
    have closed (t : State) (ht : t.bracketOpen = false) : p.closed (.ok () t) = .ok () t := by simp [Plan.closed, ht]
    rw [closed t deaf.bracketOpen]
    refine ⟨deaf, fun m => ?_⟩
    obtain ⟨m', e'⟩ := twin m
    exact ⟨m', by rw [e']; exact closed _ deaf.bracketOpen⟩
  case raised er t =>
    have closed (t : State) (ht : t.bracketOpen = false) : p.closed (.raised er t) = .raised er (p.move false t) := by
      simp [Plan.closed, ht, raise]
    rw [closed t deaf]
    refine ⟨deaf, fun m => ?_⟩
    obtain ⟨m', e'⟩ := twin m
    exact ⟨m', by rw [e']; exact closed _ deaf⟩
  all_goals
    refine ⟨trivial, fun m => ?_⟩
    obtain ⟨m', e'⟩ := twin m
    exact ⟨m', by rw [e']; rfl⟩

theorem exit (p : Plan) : p.exit.Blind c 0 0 := by
  unfold Plan.exit
  split
  · exact ret _
  · exact debugGuardExit
  · exact debugGuardExit

theorem program {p : Plan} (hb : p.bracket = false) (hw : p.write = true → p.space ≠ .isp) : p.program.Blind c 0 0 := by
  have noOpen : p.haltOpen = .ret () := by simp [Plan.haltOpen, hb]
  unfold Plan.program
  rw [noOpen]
  exact bind assign fun _ => (gate p).bind fun _ => bind assign fun _ => (check p).bind fun _ => bind assign fun _ =>
    (ret ()).bind fun _ => (close (transfers hw _ _)).bind fun _ => (exit p).bind fun _ => get fun _ _ _ => ret _

end Prog.Blind

/-- Settles O54: an unbracketed range request runs the same beside every halted MCU (`Prog.Blind.program`). -/
theorem aHaltedMcuIsIgnored : Obligations.AHaltedMcuIsIgnored := by
  unfold Obligations.AHaltedMcuIsIgnored
  intro i s t m hi hb ho hm ht hw run
  obtain ⟨⟨sp, a, n, w⟩, asked⟩ := Option.ne_none_iff_exists'.1 hi
  obtain ⟨q, hq, hp, hbr, -⟩ := plan_of_asked asked
  have noReset (hwr : w = true) : sp ≠ .isp := by
    rintro rfl
    subst hwr
    cases i <;> cases asked
    exact hw _ _ rfl
  generalize hplan : Plan.mk .. = p at hp
  have bracket : p.bracket = false := by rw [← hplan]; exact hbr.symm.trans hb
  have noReset : p.write = true → p.space ≠ .isp := by rw [← hplan]; exact noReset
  have ready : s.life = .ready := by
    by_contra hl
    rw [exec_request hq, if_neg hl] at run
    cases run
  have served (m : List (List (Addr16 × Byte))) :
      exec i (s.besideMcu m) = (p.program.run ((s.accept q).besideMcu m)).finish := exec_range hq hp (s.besideMcu m) ready
  obtain ⟨-, twin⟩ := Prog.Blind.program bracket noReset (s.accept q) ⟨ho, hm, ht.1.le, ht.2.le, rfl, rfl⟩
  obtain ⟨m₀, nothing⟩ := twin []
  obtain ⟨m', something⟩ := twin m
  have run : ((p.program.run (s.accept q)).onState (·.besideMcu m₀)).finish = .next t := by
    rw [← nothing, ← served]
    exact run
  refine ⟨m', (served m).trans ?_⟩
  rw [something]
  cases e : p.program.run (s.accept q) <;> rw [e] at run <;> cases run <;> rfl

end Sys2Proof.Machine
end

section
/-! PROOF. A transport that lets the device answer for a while and then reports a failure: what runs before the failure runs as ever
(log 7). -/

namespace Sys2Proof.Machine

/-- The same state before another transport. -/
def State.facing (s : State) (fs : List Fate) : State := { s with oracle := fs }

/-- The program does not look at what the transport will do, and it appends to the trace through its primitives alone. -/
def Prog.TransportBlind {α : Type} : Prog α → Prop
  | .ret _ => True
  | .throw _ => True
  | .fault _ => True
  | .bus _ r => ∀ o, (r o).TransportBlind
  | .sleep _ r => r.TransportBlind
  | .get r => (∀ s fs, r (s.facing fs) = r s) ∧ ∀ s, (r s).TransportBlind
  | .set f r => (∀ s fs, f (s.facing fs) = (f s).facing fs) ∧ (∀ s, (f s).trace = s.trace) ∧ r.TransportBlind

/-- A transaction the device answers, before another transport. -/
theorem transact_facing (x : Txn) (s : State) (fs : List Fate) :
    transact x (s.facing (.device :: fs)) = (transact x (s.facing [])).onState (·.facing fs) := by
  rw [transact_device x (s := s.facing (.device :: fs)) rfl, transact_device x (s := s.facing []) rfl]
  change (transact x (s.facing []).calm).onState _ = _
  cases transact x (s.facing []).calm <;> rfl

@[simp] theorem txns_append (es es' : List Event) : txns (es ++ es') = txns es + txns es' := List.countP_append

@[simp] theorem txns_eventOf (x : Txn) (a : Answer) : txns [eventOf x a] = 1 := by cases x <;> rfl

/-- A transaction that returns adds one to the trace's, and takes its fate off the transport's list. -/
theorem transact_counts {x : Txn} {s t : State} (h : (∃ rs, transact x s = .ok rs t) ∨ ∃ e, transact x s = .raised e t) :
    txns t.trace = txns s.trace + 1 ∧ t.oracle = s.oracle.tail := by
  have concluded {u : State} {y : Txn} {a : Answer} {g : Target} (hu : u = s.mcuActs.dropFate)
      (h : (∃ rs, u.conclude y a g = .ok rs t) ∨ ∃ e, u.conclude y a g = .raised e t) :
      txns t.trace = txns s.trace + 1 ∧ t.oracle = s.oracle.tail := by
    subst hu
    rcases State.conclude_cases s.mcuActs.dropFate y a g with ⟨rs, -, e⟩ | ⟨k, -, e⟩ | ⟨-, e⟩ <;> rw [e] at h <;>
      rcases h with ⟨_, h⟩ | ⟨_, h⟩ <;> cases h <;> exact ⟨by simp [State.record], rfl⟩
  rw [transact_eq] at h
  unfold transactAs at h
  split at h
  · exact concluded rfl h
  · split at h
    · exact concluded rfl h
    · simp at h
  · split at h
    · exact concluded rfl h
    · simp at h

/-- A run that completes before the device alone completes so before a transport that lets the device answer as often as there are
transactions. -/
theorem Prog.TransportBlind.run {α : Type} {p : Prog α} (hp : p.TransportBlind) {s t : State} {a : α} (ho : s.oracle = [])
    (h : p.run s = .ok a t) : ∃ k, txns t.trace = txns s.trace + k ∧
      ∀ fs, p.run (s.facing (List.replicate k .device ++ fs)) = .ok a (t.facing fs) := by
  induction p generalizing s with
  | ret b => cases h; exact ⟨0, rfl, fun fs => rfl⟩
  | throw e => cases h
  | fault f => cases h
  | bus x r ih =>
    have self : s.facing [] = s := by rw [State.facing, ← ho]
    have next {o : Except Err (List Byte)} {u : State} (hu : txns u.trace = txns s.trace + 1 ∧ u.oracle = s.oracle.tail)
        (hr : (r o).run u = .ok a t) : ∃ k, txns t.trace = txns s.trace + (k + 1) ∧
          ∀ fs, (r o).run (u.facing (List.replicate k .device ++ fs)) = .ok a (t.facing fs) := by
      obtain ⟨k, hk, hfs⟩ := ih o (hp o) (hu.2.trans (by simp [ho])) hr
      exact ⟨k, by rw [hk, hu.1]; omega, hfs⟩
    rw [Prog.run_bus] at h
    cases e : transact x s <;> rw [e] at h
    case ok rs u =>
      obtain ⟨k, hk, hfs⟩ := next (transact_counts (.inl ⟨rs, e⟩)) h
      refine ⟨k + 1, hk, fun fs => ?_⟩
      rw [Prog.run_bus, List.replicate_succ, List.cons_append, transact_facing, self, e]
      exact hfs fs
    case raised er u =>
      obtain ⟨k, hk, hfs⟩ := next (transact_counts (.inr ⟨er, e⟩)) h
      refine ⟨k + 1, hk, fun fs => ?_⟩
      rw [Prog.run_bus, List.replicate_succ, List.cons_append, transact_facing, self, e]
      exact hfs fs
    all_goals cases h
  | sleep ms r ih =>
    obtain ⟨k, hk, hfs⟩ := ih hp (s := Machine.sleep ms s) ho h
    exact ⟨k, hk.trans (by simp [Machine.sleep, State.slept, State.record, State.mcuActs, txns, Event.isTxn, txnOf]), hfs⟩
  | get r ih =>
    obtain ⟨k, hk, hfs⟩ := ih s (hp.2 s) ho h
    exact ⟨k, hk, fun fs => by rw [Prog.run_get, hp.1]; exact hfs fs⟩
  | set f r ih =>
    have oracle : (f s).oracle = [] := by
      have := hp.1 s []
      rw [State.facing, ← ho] at this
      rw [this]; exact ho
    obtain ⟨k, hk, hfs⟩ := ih hp.2.2 oracle h
    exact ⟨k, by rw [hk, hp.2.1], fun fs => by rw [Prog.run_set, hp.1]; exact hfs fs⟩

namespace Prog.TransportBlind

variable {α β : Type}

theorem bind {p : Prog α} {k : α → Prog β} (hp : p.TransportBlind) (hk : ∀ a, (k a).TransportBlind) :
    (p.bind k).TransportBlind := by
  induction p with
  | ret a => exact hk a
  | throw e => trivial
  | fault f => trivial
  | bus x r ih => exact fun o => ih o (hp o)
  | sleep ms r ih => exact ih hp
  | get r ih => exact ⟨fun s fs => congrArg (·.bind k) (hp.1 s fs), fun s => ih s (hp.2 s)⟩
  | set f r ih => exact ⟨hp.1, hp.2.1, ih hp.2.2⟩

theorem ite {c : Prop} [Decidable c] {p q : Prog α} (hp : p.TransportBlind) (hq : q.TransportBlind) :
    (if c then p else q).TransportBlind := by
  split
  · exact hp
  · exact hq

theorem bus (x : Txn) : (Machine.bus x).TransportBlind := fun o => by cases o <;> trivial

theorem assign {f : State → State} (h : ∀ s fs, f (s.facing fs) = (f s).facing fs := by exact fun _ _ => rfl)
    (ht : ∀ s, (f s).trace = s.trace := by exact fun _ => rfl) : (Machine.assign f).TransportBlind := ⟨h, ht, trivial⟩

theorem get {r : State → Prog α} (h : ∀ s, (r s).TransportBlind) (hr : ∀ s fs, r (s.facing fs) = r s := by exact fun _ _ => rfl) :
    (Prog.get r).TransportBlind := ⟨hr, h⟩

theorem queryDebugEnabled : Machine.queryDebugEnabled.TransportBlind := fun o => by
  dsimp only
  split <;> trivial

theorem setDebugEnabled (on force : Bool) : (Machine.setDebugEnabled on force).TransportBlind :=
  have delayed : (delay tMode).TransportBlind := trivial
  have write : (Prog.get fun s : State => if !on && s.haltedFlag then .throw (.invalidState .disableWhileHalted)
      else (delay tMode).bind fun _ => (Machine.bus (txDebug on s.cfg)).bind fun _ => delay tMode).TransportBlind :=
    get fun _ => ite trivial (delayed.bind fun _ => (bus _).bind fun _ => delayed)
  ite write (queryDebugEnabled.bind fun _ => ite trivial write)

theorem debugGuardEnter : Machine.debugGuardEnter.TransportBlind :=
  bind assign fun _ => get fun _ => ite (bind assign fun _ => setDebugEnabled true false)
    (queryDebugEnabled.bind fun _ => ite trivial trivial)

theorem gate {p : Plan} (hsp : p.space ≠ .isp) : p.gate.TransportBlind := by
  unfold Plan.gate
  split
  · exact absurd ‹_› hsp
  · exact debugGuardEnter
  · exact debugGuardEnter

theorem check (p : Plan) : p.check.TransportBlind := by
  refine ite trivial ?_
  split <;> trivial

theorem haltOpen (p : Plan) : p.haltOpen.TransportBlind :=
  have halt : (Machine.haltCtl true).TransportBlind := (bus _).bind fun _ => bind assign fun _ => trivial
  ite (halt.bind fun _ => bind assign fun _ => assign) trivial

/-- What stands before the transfers is blind to the transport. -/
theorem opening {p : Plan} (hsp : p.space ≠ .isp) : p.opening.TransportBlind :=
  bind assign fun _ => (gate hsp).bind fun _ => bind assign fun _ => (check p).bind fun _ => bind assign fun _ => haltOpen p

theorem transfer {p : Plan} (hsp : p.space ≠ .isp) (i : Nat) : (p.transfer i).TransportBlind := by
  have settle : (settleUnlessHalt p.halt).TransportBlind := ite trivial trivial
  have pause : (delay tEeprom).TransportBlind := trivial
  have data : ((Machine.bus txDbgData).bind fun rs => .ret (rs.headD 0)).TransportBlind := (bus _).bind fun _ => trivial
  unfold Plan.transfer readXfer writeXfer
  cases hs : p.space with
  | isp => exact absurd hs hsp
  | xdata => exact ite ((bus _).bind fun _ => settle) (((bus _).bind fun _ => settle.bind fun _ => data).bind fun _ => assign)
  | eeprom =>
    exact ite ((bus _).bind fun _ => pause.bind fun _ => settle)
      (((bus _).bind fun _ => pause.bind fun _ => settle.bind fun _ => data).bind fun _ => assign)

/-- And so are the transfers. -/
theorem transfers {p : Plan} (hsp : p.space ≠ .isp) (k i : Nat) : (p.transfers k i).TransportBlind := by
  induction k generalizing i with
  | zero => trivial
  | succ k ih => exact (transfer hsp i).bind fun _ => bind assign fun _ => ih (i + 1)

end Prog.TransportBlind

end Sys2Proof.Machine
end

section
/-! PROOF. A transfer that fails inside the bracket, and the close after it (R52, R129, R164). -/

namespace Sys2Proof.Machine

/-- A transaction the transport reports as failed, with or without an effect on the target (R164, log 24). -/
theorem transact_failed {x : Txn} {s : State} {k : ErrClass} {took : Bool} {o : Answer} {g : Target} (hm : s.mcu = [])
    (ha : s.target.answer s.cfg x = some (o, g)) (ho : s.oracle = [.override (.err k) took]) :
    transact x s = .raised (.transportError k)
      ((s.facing []).after [eventOf x (.err k)] (if took then g.reported s.target (.err k) else s.target)) := by
  have failed : outcomeOf x (.err k) = .err k := by cases x <;> rfl
  have calm : s.calm = { s with oracle := [] } := by rw [State.calm, State.turned, hm]; rfl
  rw [transact_fate, ho, calm]
  cases took
  · simp [transactAs, failed, State.conclude, raise, Res.onState, State.record, State.beside, State.after, State.facing, hm]
  · simp [transactAs, ha, failed, State.conclude, raise, Res.onState, State.record, State.beside, State.after, State.facing, hm]

/-- The delay the command of a plan's transfer asks of the next frame (R71). -/
def Plan.settleTime (p : Plan) (t : Target) : Nat := if p.space = .eeprom then t.eepromSettle else t.xdataSettle

/-- What the command of transfer `j` does to the target. -/
def Plan.commanded (p : Plan) (t : Target) (j : Nat) : Target :=
  if p.write then t.store (p.loc j) (p.value j) (p.settleTime t) else t.setup (p.loc j) (p.settleTime t)

theorem Plan.command_answer {p : Plan} (hsp : p.space ≠ .isp) {t : Target} (ha : t.Answers) (c : Params) (j : Nat) :
    t.answer c (p.command j) = some (.ok [], p.commanded t j) := by
  obtain ⟨on, inTime, owed⟩ := ha
  rw [Target.answer_settled _ _ _ owed]
  unfold Plan.command Plan.commanded Plan.loc Plan.settleTime
  cases hs : p.space with
  | isp => exact absurd hs hsp
  | xdata =>
    cases hw : p.write <;>
      simp [txXdataRd, txXdataWr, Target.reply, Target.dbgFrame, Target.dbgCommand, on, inTime, DisableSeq.bytes]
  | eeprom =>
    cases hw : p.write <;>
      simp [txEeRd, txEeWr, Target.reply, Target.dbgFrame, Target.dbgCommand, on, inTime, DisableSeq.bytes, cmdEeRd, cmdEeWr]

/-- The data read of a debug interface that answers (R72). -/
theorem dbgData_answer {t : Target} (ha : t.Answers) (c : Params) : t.answer c txDbgData = some (t.dbgData 1) := by
  obtain ⟨on, inTime, owed⟩ := ha
  rw [Target.answer_settled _ _ _ owed]
  simp [txDbgData, Target.reply, Target.dbgRead, on, inTime, dbgReadPrefix]

/-- Inside the bracket a transfer waits for the EEPROM alone (R193). -/
theorem Plan.paused_halt {p : Plan} (hh : p.halt = true) {s : State} (hm : s.mcu = []) :
    p.paused s = s.after p.pause (s.target.wait (if p.space = .eeprom then 10 else 0)) := by
  unfold Plan.paused Plan.pause
  rw [hh]
  split
  · simp [settled, settleEvents, sleep_quiet _ hm, State.record, State.after, hm, tEeprom]
  · simp [settled, settleEvents, State.after]

/-- What a failed transfer `j` has done to the bytes of the target: a write that took effect has stored a byte at its location, the
element's where its delay is none (R71). -/
def Plan.Failed (p : Plan) (t : Target) (j : Nat) (took : Bool) (g : Target) : Prop :=
  if p.write && took then ∃ v, g.Stores t (p.loc j) v ∧ (p.space = .xdata → v = p.value j) else g.SameBytes t

/-- A frame found unanswered, or with no effect but on the data port, leaves the bytes. -/
theorem Target.SameCore.failed {p : Plan} {g t : Target} (h : g.SameCore t) (hs : t.Settled) (j : Nat) {took : Bool}
    (hw : (p.write && took) = false) : g.unsettle.SameCore t ∧ p.Failed t j took g.unsettle := by
  rw [g.unsettle_settled (h.owedWrite.trans hs.2)]
  exact ⟨h, by rw [Plan.Failed, hw, if_neg (by simp)]; exact h.peek⟩

theorem Target.SameCore.reported {g t : Target} (h : g.SameCore t) (a : Answer) : (g.reported t a).SameCore t := by
  have owedMem : (g.reported t a).owedMem = t.owedMem := by
    cases a with
    | ok rs => exact h.owedMem
    | err k => rfl
    | hang => rfl
  constructor <;> simp [h.isp, h.ispPtr, h.debugMode, h.mcuHalted, h.xdata, h.eeprom, h.owedWrite, owedMem, h.owedCmd]

/-- A debug write reported as failed that took effect: the next frame finds its byte, or any byte where it had to settle. -/
theorem Target.store_failed {t : Target} (ha : t.Answers) (hwf : t.wf) (l : Loc) (v : Byte) (ms : Nat) (k : ErrClass) :
    ((t.store l v ms).reported t (.err k)).unsettle.Answers ∧
    ∃ v', ((t.store l v ms).reported t (.err k)).unsettle.Stores t l v' ∧ (ms = 0 → v' = v) := by
  obtain ⟨on, ⟨cmd, mem⟩, owed⟩ := ha
  generalize hg : (t.store l v ms).reported t (.err k) = g
  have stored : g.Stores t l v := by
    rw [← hg]
    exact ⟨by rw [Target.reported_peek]; exact (t.store_stores hwf l v ms).1.1,
      fun x hx => by rw [Target.reported_peek]; exact (t.store_stores hwf l v ms).1.2 x hx⟩
  have inTime : g.unsettle.InTime := by
    rw [Target.InTime, Target.unsettle_owedCmd, Target.unsettle_owedMem, ← hg]
    exact ⟨by simp [cmd], mem⟩
  have mode : g.unsettle.debugMode = true := by rw [Target.unsettle_debugMode, ← hg]; simp [on]
  have last : g.lastWrite = some l := by rw [← hg]; simp
  have due : g.owedWrite = ms := by rw [← hg]; simp
  have wf : g.wf := hg ▸ Target.reported_wf t _ (t.poke_wf l v hwf)
  rcases Nat.eq_zero_or_pos ms with rfl | pos
  · rw [g.unsettle_settled due] at mode inTime ⊢
    exact ⟨⟨mode, inTime, due⟩, v, stored, fun _ => rfl⟩
  · have unsettled : g.unsettle = { g.poke l (Config.freeByte g.draws) with owedWrite := 0, draws := g.draws + 1 } := by
      simp only [Target.unsettle, last, due, if_pos pos]
    have peek (x : Loc) : g.unsettle.peek x = (g.poke l (Config.freeByte g.draws)).peek x := by
      rw [unsettled]
      cases x <;> rfl
    refine ⟨⟨mode, inTime, by rw [unsettled]⟩, Config.freeByte g.draws, ⟨?_, fun x hx => ?_⟩, fun e => absurd e pos.ne'⟩
    · rw [peek, Target.peek_poke_same _ _ _ wf]
    · rw [peek, Target.peek_poke_other _ _ _ _ hx, stored.2 x hx]

/-- A command reported as failed inside the bracket, with or without an effect. -/
theorem Plan.command_failed {p : Plan} {t : Target} (ha : t.Answers) (hm : t.mcuHalted = true) (hwf : p.write = true → t.wf) (j : Nat)
    (k : ErrClass) {took : Bool} {g : Target} (hg : g = if took then (p.commanded t j).reported t (.err k) else t) :
    g.unsettle.Modes true true t.ispPtr ∧ g.unsettle.Settled ∧ p.Failed t j took g.unsettle := by
  have quiet (h : g.SameCore t) (hw : (p.write && took) = false) :
      g.unsettle.Modes true true t.ispPtr ∧ g.unsettle.Settled ∧ p.Failed t j took g.unsettle := by
    obtain ⟨core, failed⟩ := h.failed (p := p) ha.2 j hw
    exact ⟨⟨core.debugMode.trans ha.1, core.mcuHalted.trans hm, core.ispPtr⟩, core.settled ha.2, failed⟩
  cases took with
  | false => exact quiet (hg ▸ .refl t) (by simp)
  | true =>
    rw [if_pos rfl, Plan.commanded] at hg
    cases hw : p.write with
    | false =>
      rw [hw, if_neg (by simp)] at hg
      exact quiet (by rw [hg]; constructor <;> rfl) (by simp [hw])
    | true =>
      rw [hw, if_pos rfl] at hg
      obtain ⟨answers, v, stores, exact⟩ := Target.store_failed ha (hwf hw) (p.loc j) (p.value j) (p.settleTime t) k
      rw [← hg] at answers stores
      refine ⟨⟨answers.1, ?_, ?_⟩, answers.2, ?_⟩
      · rw [Target.unsettle_mcuHalted, hg]; simp [hm]
      · rw [Target.unsettle_ispPtr, hg]; simp
      · rw [Plan.Failed, hw, if_pos (by rfl)]
        refine ⟨v, stores, fun hs => exact ?_⟩
        simp [Plan.settleTime, hs, Target.xdataSettle, hm]

/-- The delays are no transactions. -/
theorem Plan.pause_isTxn {p : Plan} (hh : p.halt = true) : ∀ e ∈ p.pause, e.isTxn = false := by
  unfold Plan.pause
  rw [hh]
  split <;> simp [settleEvents, Event.isTxn, txnOf]

theorem Plan.txns_pause {p : Plan} (hh : p.halt = true) : txns p.pause = 0 :=
  List.countP_eq_zero.2 fun e he => by simp [Plan.pause_isTxn hh e he]

/-- Every command is a write, which brings no bytes. -/
theorem Plan.outcome_command (p : Plan) (j : Nat) : outcomeOf (p.command j) (.ok []) = .ok [] := by
  unfold Plan.command
  split <;> rfl

/-- The events of a transfer inside the bracket: the command, and for a read the data read after its delay. -/
theorem Plan.moves_split {p : Plan} (hh : p.halt = true) {t : Target} {j : Nat} {pre post : List Event} {e : Event}
    (h : p.moves t j = pre ++ e :: post) (he : e.isTxn = true) : (pre = [] ∧ e = eventOf (p.command j) (.ok [])) ∨
      (p.write = false ∧ pre = eventOf (p.command j) (.ok []) :: p.pause ∧ e = rOk .dbg [] [t.peek (p.loc j)]) := by
  unfold Plan.moves at h
  cases pre with
  | nil => exact .inl ⟨rfl, (List.cons.inj h).1.symm⟩
  | cons c pre =>
    obtain ⟨hc, h⟩ := List.cons.inj h
    have data (as : List Event) (h : p.dataRead t j = as ++ e :: post) :
        p.write = false ∧ as = [] ∧ e = rOk .dbg [] [t.peek (p.loc j)] := by
      unfold Plan.dataRead at h
      cases hw : p.write with
      | true => simp [hw] at h
      | false =>
        cases as with
        | nil => simp [hw] at h; exact ⟨rfl, rfl, h.1.symm⟩
        | cons => simp [hw] at h
    rcases List.append_eq_append_iff.1 h with ⟨as, rfl, hdata⟩ | ⟨bs, hpause, hbs⟩
    · obtain ⟨hw, rfl, rfl⟩ := data as hdata
      exact .inr ⟨hw, by rw [← hc, List.append_nil], rfl⟩
    · cases bs with
      | nil =>
        obtain ⟨hw, -, rfl⟩ := data [] hbs.symm
        exact .inr ⟨hw, by rw [← hc, hpause, List.append_nil], rfl⟩
      | cons b bs =>
        obtain ⟨rfl, -⟩ := List.cons.inj hbs
        simp [Plan.pause_isTxn hh e (by simp [hpause])] at he

/-- What the device answers first, before a transport that fails later. -/
theorem transact_answered_first {x : Txn} {s : State} {rs : List Byte} {g : Target} {fs : List Fate} (hm : s.mcu = [])
    (ho : s.oracle = .device :: fs) (ha : s.target.answer s.cfg x = some (.ok rs, g)) (hr : outcomeOf x (.ok rs) = .ok rs) :
    transact x s = .ok rs ((s.facing fs).after [eventOf x (.ok rs)] g) := by
  have self : s = (s.facing []).facing (.device :: fs) := by rw [← ho]; rfl
  have first := transact_facing x (s.facing []) fs
  rw [← self, show (s.facing []).facing [] = s.facing [] from rfl, transact_answered (s := s.facing []) rfl hm ha hr] at first
  exact first

/-- The target a data read finds after the setup of transfer `j` and its delay. -/
theorem Plan.setup_paused {p : Plan} (hw : p.write = false) {t : Target} (hs : t.Settled) (hm : t.mcuHalted = true) (j : Nat) :
    ((p.commanded t j).wait (if p.space = .eeprom then 10 else 0)).SameCore t := by
  rw [Plan.commanded, hw, if_neg (by simp)]
  refine Target.setup_settled hs _ ?_
  rw [Plan.settleTime]
  split <;> simp [Target.eepromSettle, Target.xdataSettle, hm, tEeprom]

/-- The data read of a transfer fails inside the bracket, after its command has succeeded. -/
theorem Plan.dataRead_failed {p : Plan} (hp : p.Debug) (hh : p.halt = true) (hw : p.write = false) {u : State} (hm : u.mcu = [])
    (ha : u.target.Answers) (hhalt : u.target.mcuHalted = true) (j : Nat) {k : ErrClass} {took : Bool}
    (ho : u.oracle = [.device, .override (.err k) took]) : ∃ g,
    (p.transfer j).run u = .raised (.transportError k)
      ((u.facing []).after (eventOf (p.command j) (.ok []) :: p.pause ++ [eventOf txDbgData (.err k)]) g) ∧
      g.SameCore u.target := by
  have command := transact_answered_first hm ho (Plan.command_answer hp.space ha _ j) (p.outcome_command j)
  generalize hg : p.commanded u.target j = g at command
  have core : (g.wait (if p.space = .eeprom then 10 else 0)).SameCore u.target := hg ▸ Plan.setup_paused hw ha.2 hhalt j
  generalize hd : g.wait _ = d at core
  have paused : p.paused ((u.facing [.override (.err k) took]).after [eventOf (p.command j) (.ok [])] g) =
      (u.facing [.override (.err k) took]).after (eventOf (p.command j) (.ok []) :: p.pause) d := by
    rw [Plan.paused_halt hh (by simp [State.facing, hm]), State.after_after, State.after_target, hd]
    rfl
  have read := transact_failed (s := (u.facing [.override (.err k) took]).after (eventOf (p.command j) (.ok []) :: p.pause) d)
    (by simp [State.facing, hm]) (dbgData_answer (core.answers ha) u.cfg) rfl
  obtain ⟨b, -, port⟩ := d.dbgData_cases
  refine ⟨if took then (d.dbgData 1).2.reported d (.err k) else d, ?_, ?_⟩
  · rw [Plan.transfer_debug_run hp.space, command, Res.bind_ok, hw, if_neg (by simp), paused, read, Res.bind_raised]
    exact congrArg (Res.raised _) (State.after_after (u.facing []) _ _ d _)
  · split
    · exact (port.reported _).trans core
    · exact core

/-- A transfer fails inside the bracket, at its command or at its data read. -/
theorem Plan.transfer_failed {p : Plan} (hp : p.Debug) (hh : p.halt = true) {u : State} (hm : u.mcu = []) (ha : u.target.Answers)
    (hhalt : u.target.mcuHalted = true) (hwf : p.write = true → u.target.wf) {j : Nat} {pre post : List Event} {e : Event}
    (hmv : p.moves u.target j = pre ++ e :: post) (he : e.isTxn = true) {k : ErrClass} {took : Bool}
    (ho : u.oracle = List.replicate (txns pre) .device ++ [.override (.err k) took]) : ∃ g,
    (p.transfer j).run u = .raised (.transportError k) ((u.facing []).after (pre ++ [e.failed k]) g) ∧
      g.unsettle.Modes true true u.target.ispPtr ∧ g.unsettle.Settled ∧ p.Failed u.target j took g.unsettle := by
  rcases Plan.moves_split hh hmv he with ⟨rfl, rfl⟩ | ⟨hw, rfl, rfl⟩
  · refine ⟨_, ?_, Plan.command_failed ha hhalt hwf j k rfl⟩
    have failed : (eventOf (p.command j) (.ok [])).failed k = eventOf (p.command j) (.err k) := by cases p.command j <;> rfl
    rw [Plan.transfer_debug_run hp.space, transact_failed hm (Plan.command_answer hp.space ha _ j) (by simpa [txns] using ho), failed]
    rfl
  · have once : u.oracle = [.device, .override (.err k) took] := by
      rw [ho, ← List.singleton_append, txns_append, txns_eventOf, Plan.txns_pause hh]
      rfl
    obtain ⟨g, run, hg⟩ := Plan.dataRead_failed hp hh hw hm ha hhalt j once
    obtain ⟨core, hf⟩ := hg.failed (p := p) ha.2 j (took := took) (by simp [hw])
    exact ⟨g, run, ⟨core.debugMode.trans ha.1, core.mcuHalted.trans hhalt, core.ispPtr⟩, core.settled ha.2, hf⟩

/-! The failing transfer found in the events, and the request around it. -/

/-- An event of some transfers is an event of one of them. -/
theorem flatMap_range_split {f : Nat → List Event} {n : Nat} {pre post : List Event} {e : Event}
    (h : (List.range n).flatMap f = pre ++ e :: post) : ∃ j < n, ∃ pre' post',
      pre = (List.range j).flatMap f ++ pre' ∧ f j = pre' ++ e :: post' := by
  induction n generalizing post with
  | zero => simp at h
  | succ n ih =>
    have earlier {post : List Event} (h : (List.range n).flatMap f = pre ++ e :: post) : ∃ j < n + 1, ∃ pre' post',
        pre = (List.range j).flatMap f ++ pre' ∧ f j = pre' ++ e :: post' := by
      obtain ⟨j, hj, split⟩ := ih h
      exact ⟨j, by omega, split⟩
    rw [List.range_succ, List.flatMap_append, List.flatMap_singleton] at h
    rcases List.append_eq_append_iff.1 h with ⟨as, hpre, hf⟩ | ⟨bs, hpre, hbs⟩
    · exact ⟨n, by omega, as, post, hpre, hf⟩
    · cases bs with
      | nil => exact ⟨n, by omega, [], post, by simpa using hpre.symm, hbs.symm⟩
      | cons b bs =>
        obtain ⟨rfl, -⟩ := List.cons.inj hbs
        exact earlier hpre

theorem Plan.transfers_add (p : Plan) (j k i : Nat) (s : State) : (p.transfers (j + k) i).run s =
    ((p.transfers j i).run s).bind fun _ s => (p.transfers k (i + j)).run s := by
  induction j generalizing i s with
  | zero => simp
  | succ j ih =>
    rw [Nat.add_right_comm, Plan.transfers_succ_run, Plan.transfers_succ_run, Res.bind_assoc]
    congr 1
    funext _ s
    rw [ih, Nat.add_assoc, Nat.add_comm 1 j]

/-- A write has one transaction in each transfer. -/
theorem Plan.txns_moves {p : Plan} (hh : p.halt = true) (hw : p.write = true) (t : Target) (j : Nat) :
    txns ((List.range j).flatMap (p.moves t)) = j := by
  have one (i : Nat) : txns (p.moves t i) = 1 := by
    rw [Plan.moves, Plan.dataRead, hw, if_pos rfl, ← List.singleton_append, txns_append, txns_append, txns_eventOf,
      Plan.txns_pause hh]
    rfl
  induction j with
  | zero => rfl
  | succ j ih => rw [List.range_succ, List.flatMap_append, List.flatMap_singleton, txns_append, ih, one]

/-- The close after a transfer that failed (R129): the MCU runs again, the error is raised. -/
theorem Plan.closed_failed {p : Plan} {s : State} (ho : s.oracle = []) (hm : s.mcu = []) (hop : s.bracketOpen = true)
    (hmodes : s.target.unsettle.debugMode = true) (hs : s.target.unsettle.Settled) (hc : HaltDistinct s.cfg) (e : Err) : ∃ ph g,
    p.closed (.raised e s) = .raised e (State.after
      { s with haltedFlag := false, bracketOpen := false, phase := ph, pendingError := some e } [wOk .dbg [0x80, 0x00], .d 100] g) ∧
    g.SameCore (s.target.unsettle.inHalt false) := by
  have turned : (p.move false (s.pend e)).markClosed.turned 1 = s.target := by
    rw [State.turned, show (p.move false (s.pend e)).markClosed.mcu = [] from hm]
    rfl
  obtain ⟨g, run, hg⟩ := haltCtl_turned (s := (p.move false (s.pend e)).markClosed) ho
    (by rw [turned]; exact ⟨hmodes, hs⟩) false hc.2
  rw [turned, show (p.move false (s.pend e)).markClosed.mcu = [] from hm] at hg
  refine ⟨?_, g, ?_, hg⟩
  rotate_left
  · rw [Plan.closed, if_pos hop, Plan.haltClose_run, run, Res.bind_ok]
    simp [State.after, Plan.move, State.move, State.pend, State.markClosed, raise, hm]
    rfl

/-- Transfers of which one fails inside the bracket: those before it stay performed. -/
theorem Plan.transfers_failed {p : Plan} (hp : p.Debug) (hh : p.halt = true) {u : State} (hm : u.mcu = []) (ha : u.target.Answers)
    (hhalt : u.target.mcuHalted = true) (hwf : p.write = true → u.target.wf) {pre post : List Event} {e : Event}
    (hev : (List.range p.count).flatMap (p.moves u.target) = pre ++ e :: post) (he : e.isTxn = true) {k : ErrClass} {took : Bool}
    (ho : u.oracle = List.replicate (txns pre) .device ++ [.override (.err k) took]) : ∃ ph out j m g,
    (p.transfers p.count 0).run u = .raised (.transportError k)
      (State.after { u with phase := ph, result := out, oracle := [] } (pre ++ [e.failed k]) g) ∧
      j < p.count ∧ (p.write = true → txns pre = j) ∧ p.Reached u.target j m ∧
      g.unsettle.Modes true true u.target.ispPtr ∧ g.unsettle.Settled ∧ p.Failed m j took g.unsettle := by
  obtain ⟨j, hj, pre', post', rfl, hmv⟩ := flatMap_range_split hev
  obtain ⟨ph, m, before, reached⟩ := Plan.transfers_debug hp (s := u.facing []) ⟨rfl, .inl hm⟩ ha (fun _ => hhalt) hwf hj.le
  obtain ⟨n, hn, first⟩ := (Prog.TransportBlind.transfers hp.space j 0).run rfl before
  have count : n = txns ((List.range j).flatMap (p.moves u.target)) := by
    simp only [State.after_trace, txns_append] at hn
    exact (Nat.add_left_cancel hn).symm
  have ran := first (List.replicate (txns pre') .device ++ [.override (.err k) took])
  rw [← List.append_assoc, List.replicate_append_replicate, count, ← txns_append, ← ho] at ran
  rw [show (u.facing []).facing u.oracle = u from rfl] at ran
  generalize hv : State.facing _ _ = v at ran
  have target : v.target = m := by rw [← hv]; rfl
  obtain ⟨g, failed, modes, settled, bytes⟩ := Plan.transfer_failed hp hh (u := v) (by rw [← hv]; simp [State.facing, hm])
    (target ▸ reached.answers) (target ▸ reached.mcuHalted.trans hhalt) (target ▸ reached.wf)
    (target ▸ (reached.moves_eq j).1.trans hmv) he (k := k) (took := took) (by rw [← hv]; rfl)
  rw [target] at modes bytes
  refine ⟨ph, u.result ++ (List.range j).flatMap (p.out u.target), j, m, g, ?_, hj, fun hw => ?_, reached, reached.ispPtr ▸ modes,
    settled, bytes⟩
  · rw [show p.count = j + (p.count - j - 1 + 1) by omega, Plan.transfers_add, ran, Res.bind_ok, Plan.transfers_succ_run, Nat.zero_add,
      failed, Res.bind_raised, ← hv]
    simp [State.after, State.facing, hm]
  · rw [txns_append, Plan.txns_moves hh hw]
    rcases Plan.moves_split hh hmv he with ⟨rfl, -⟩ | ⟨hr, -⟩
    · rfl
    · rw [hr] at hw; cases hw

/-- The events of a transfer depend on the bytes of the target alone. -/
theorem Plan.moves_congr {p : Plan} {g t : Target} (h : g.SameBytes t) : p.moves g = p.moves t := by
  funext j
  simp [Plan.moves, Plan.dataRead, h (p.loc j)]

theorem Target.StoresAll.congr {g t t' : Target} {loc : Nat → Loc} {vs : List Byte} (h : g.StoresAll t loc vs)
    (ht : t.SameBytes t') : g.StoresAll t' loc vs := ⟨h.1, fun x hx => (h.2 x hx).trans (ht x)⟩

/-- What a failed transfer leaves, in the statements' words. -/
theorem Plan.Serves.failedAt {p : Plan} {i : Instr} {q : Latches} (h : p.Serves i q) {t t₀ m g : Target} {j n : Nat} {took : Bool}
    (ht : t₀.SameBytes t) (hj : j < p.count) (hn : p.write = true → n = j) (hr : p.Reached t₀ j m) (hf : p.Failed m j took g) :
    g.FailedAt t i n took (p.space == .xdata) := by
  have bytes := hr.bytes
  simp only [Target.FailedAt, h.writes]
  cases hw : p.write with
  | false =>
    rw [Plan.Failed, hw, if_neg (by simp)] at hf
    rw [hw, if_neg (by simp)] at bytes
    exact fun x => (hf x).trans ((bytes x).trans (ht x))
  | true =>
    obtain rfl := hn hw
    rw [hw, if_pos rfl] at bytes
    have len : n < p.values.length := by rw [h.inRange.values hw]; exact hj
    have size : (p.values.take n).length = n := by simp; omega
    cases took with
    | false =>
      rw [Plan.Failed, hw, if_neg (by simp)] at hf
      exact Target.StoresAll.congr ⟨fun k hk => (hf _).trans (bytes.1 k hk), fun x hx => (hf x).trans (bytes.2 x hx)⟩ ht
    | true =>
      rw [Plan.Failed, hw, if_pos (by rfl)] at hf
      obtain ⟨v, stores, element⟩ := hf
      refine ⟨v, (bytes.snoc (by rw [size]; exact stores) ?_).congr ht, fun hs => ?_⟩
      · rw [size]
        exact fun k hk => Plan.loc_ne h.inRange.space h.inRange.window hk hj
      · rw [element (by simpa using hs), Plan.value_eq len, List.getElem?_eq_getElem len]

/-- The opening's transactions are the gate's and the halt frame. -/
theorem txns_opening (c : Params) (on : Bool) (b : Byte) :
    txns (enableEvents c on b ++ [wOk .dbg [0x80, 0x01], .d 100]) = (if on then 1 else 2) + 1 := by
  cases on <;> rfl

/-- The opening of the bracket before a transport that lets the device answer it and does `fs` after it. -/
theorem Plan.opening_facing {p : Plan} (hp : p.Debug) (hck : ∀ s, p.check.run s = .ok () s) (hb : p.bracket = true) {s : State}
    (hm : s.mcu = []) (hs : s.target.Settled) (hd : s.target.debugMode = true ∨ s.debugAutoEnable = true) (hc : HaltDistinct s.cfg)
    {fs : List Fate} (ho : s.oracle = List.replicate ((if s.target.debugMode then 1 else 2) + 1) .device ++ fs) : ∃ ph b g,
    p.opening.run s = .ok () (State.after
      { s with autoTaken := s.debugAutoEnable, phase := ph, haltedFlag := true, bracketOpen := true, oracle := fs }
      (enableEvents s.cfg s.target.debugMode b ++ [wOk .dbg [0x80, 0x01], .d 100]) g) ∧
    g.SameCore ((s.target.inDebug true).inHalt true) := by
  obtain ⟨ph, b, g, opened, hg⟩ := Plan.opening_bracket hp (s := s.facing []) rfl hck hb hs hd hc
  obtain ⟨n, hn, run⟩ := (Prog.TransportBlind.opening hp.space).run rfl opened
  have count : n = (if s.target.debugMode then 1 else 2) + 1 := by
    rw [State.after_trace, txns_append] at hn
    exact (Nat.add_left_cancel hn).symm.trans (txns_opening ..)
  have ran := run fs
  rw [count, ← ho] at ran
  rw [State.Quiet.turned (s := s.facing []) ⟨rfl, .inl hm⟩] at hg
  exact ⟨ph, b, g, ran, hg⟩

/-- A failure described of one target describes every target with the same bytes. -/
theorem Plan.Failed.congr {p : Plan} {t g g' : Target} {j : Nat} {took : Bool} (h : p.Failed t j took g) (hg : g'.SameBytes g) :
    p.Failed t j took g' := by
  unfold Plan.Failed at h ⊢
  split
  · rw [if_pos ‹_›] at h
    obtain ⟨v, ⟨byte, others⟩, element⟩ := h
    exact ⟨v, ⟨(hg _).trans byte, fun x hx => (hg x).trans (others x hx)⟩, element⟩
  · rw [if_neg ‹_›] at h
    exact fun x => (hg x).trans (h x)

/-- A bracketed request whose transfer fails, the MCU having nothing to write: the close runs and the error is raised. -/
theorem Plan.Serves.program_failed {p : Plan} {i : Instr} {q : Latches} (hp : p.Serves i q) (hb : bracketed i = true) {s : State}
    (hm : s.mcu = []) (hs : s.target.Settled) (hd : s.target.debugMode = true ∨ s.debugAutoEnable = true)
    (hc : HaltDistinct s.cfg) (hwf : s.target.wf) {pre post : List Event} {e : Event}
    (hev : transferEvents s.target i = pre ++ e :: post) (he : e.isTxn = true) {k : ErrClass} {took : Bool}
    (ho : s.oracle = List.replicate ((if s.target.debugMode then 1 else 2) + 1 + txns pre) .device ++ [.override (.err k) took]) :
    ∃ ph out b g, p.program.run s = .raised (.transportError k) (State.after
        { s with autoTaken := s.debugAutoEnable, phase := ph, haltedFlag := false, bracketOpen := false, result := out,
                 pendingError := some (.transportError k), oracle := [] }
        (enableEvents s.cfg s.target.debugMode b ++ [wOk .dbg [0x80, 0x01], .d 100] ++ pre ++
          [e.failed k, wOk .dbg [0x80, 0x00], .d 100]) g) ∧
      g.FailedAt s.target i (txns pre) took (p.space == .xdata) ∧ g.Modes true false s.target.ispPtr := by
  rw [List.replicate_add, List.append_assoc] at ho
  obtain ⟨ph₁, b, t, opened, ht⟩ := Plan.opening_facing hp.inRange hp.check (hp.bracket.trans hb) hm hs hd hc ho
  have same : t.SameBytes s.target := fun x => (ht.peek x).trans (by cases x <;> rfl)
  generalize hu : State.after _ _ t = u at opened
  have target : u.target = t := by rw [← hu]; rfl
  have ptr : t.ispPtr = s.target.ispPtr := ht.ispPtr
  rw [transferEvents_of_plan hp.latches hp.plan hp.inRange.space, ← Plan.moves_congr same] at hev
  obtain ⟨ph₂, out, j, m, g, failed, hj, count, reached, ⟨on, -, ptr'⟩, settled, bytes⟩ := Plan.transfers_failed hp.inRange
    (hp.halt.trans hb) (u := u) (by rw [← hu]; simp [hm]) (target ▸ ⟨ht.debugMode, ht.settled hs⟩) (target ▸ ht.mcuHalted)
    (fun _ => target ▸ ht.wf hwf) (target ▸ hev) he (k := k) (took := took) (by rw [← hu]; rfl)
  rw [target] at reached ptr'
  generalize hv : State.after _ _ g = v at failed
  have target' : v.target = g := by rw [← hv]; rfl
  obtain ⟨ph₃, g', closed, hg'⟩ := Plan.closed_failed (p := p) (s := v) (by rw [← hv]; rfl) (by rw [← hv, ← hu]; simp [hm])
    (by rw [← hv, ← hu]; rfl) (target' ▸ on) (target' ▸ settled) (by rw [← hv, ← hu]; exact hc) (.transportError k)
  rw [target'] at hg'
  have same' : g'.SameBytes g.unsettle := fun x => (hg'.peek x).trans (by cases x <;> rfl)
  refine ⟨ph₃, out, b, g', ?_, hp.failedAt same hj count reached (bytes.congr same'),
    hg'.debugMode.trans on, hg'.mcuHalted, hg'.ispPtr.trans (ptr'.trans ptr)⟩
  rw [Plan.program_opening, opened, Res.bind_ok, failed, closed, Res.bind_raised, ← hv, ← hu]
  simp [State.after, hm]

/-- Settles O48: the transport fails a transfer after the opening and the transfers before it ran as ever
(`Prog.TransportBlind.run`), and the close finds the target unsettled (`Plan.closed_failed`). -/
theorem aFailedTransferClosesTheBracket : Obligations.AFailedTransferClosesTheBracket := by
  unfold Obligations.AFailedTransferClosesTheBracket
  intro i s sp a n w pre post e k took hl hm hwf hs hd hc hb asked hw hev he ho
  have debugSpace : sp ≠ .isp := by
    obtain ⟨_, -, -, halts, -⟩ := plan_of_asked asked
    rintro rfl
    simp [halts] at hb
  obtain ⟨q, p, hp, hsp, -⟩ := plan_serves asked debugSpace hw
  obtain ⟨ph, out, b, g, run, failed, modes⟩ := hp.program_failed hb (s := s.accept q) hm hs hd hc hwf hev he ho
  refine ⟨b, g, ?_, hsp ▸ failed, modes⟩
  rw [hp.exec hl, run]
  simp [Res.finish, State.takeError, State.respond, State.answered, State.after, State.accept, hp.latches]

end Sys2Proof.Machine
end

section
/-! PROOF. The decoder and the encoder (30_encoding.md): what a request record and a frame decode to, and back. -/

namespace Sys2Proof

/-! Operation codes (R90). -/

@[simp] theorem Op.ofCode_code (o : Op) : Op.ofCode o.code = some o := by cases o <;> rfl

/-- A code is reserved where no operation has it (R91). -/
theorem Op.ofCode_eq_none {c : Byte} (h : c ∉ Op.all.map Op.code) : Op.ofCode c = none := by
  refine List.find?_eq_none.2 fun o ho hc => h ?_
  exact List.mem_map.2 ⟨o, ho, by simpa using hc⟩

/-- A code listed for the operations of a kind is the code of one of them. -/
theorem Op.of_mem_codes (kind : Op → Bool) {c : Byte} (h : c ∈ (Op.all.filter kind).map Op.code) :
    ∃ o, kind o = true ∧ c = o.code := by
  obtain ⟨o, ho, hc⟩ := List.mem_map.1 h
  exact ⟨o, (List.mem_filter.1 ho).2, hc.symm⟩

/-! Host requests (R89 to R92). -/

/-- A required operand that is given. -/
@[simp] theorem Decoded.need_some {α : Type} (a : α) (name : Operand) (k : α → Decoded) :
    Decoded.need (some a) name k = k a := rfl

/-- A required operand that is missing (R91). -/
@[simp] theorem Decoded.need_none {α : Type} (name : Operand) (k : α → Decoded) :
    Decoded.need none name k = .rejected (.missingOperand name) := rfl

section request
variable {r : Request} {o : Op}

theorem decodeRequest_of_reserved (h : r.op ∉ Op.all.map Op.code) : decodeRequest r = .rejected (.reservedOp r.op) := by
  simp only [decodeRequest, Op.ofCode_eq_none h]

theorem decodeRequest_of_code (h : r.op = o.code) :
    decodeRequest r = if r.last.isSome && !o.isDump then .rejected .endOnNonDump else decodeOperands r o := by
  simp only [decodeRequest, h, Op.ofCode_code]

theorem decodeRequest_of_end (h : r.op = o.code) (hd : o.isDump = false) (hl : r.last ≠ none) :
    decodeRequest r = .rejected .endOnNonDump := by
  simp [decodeRequest_of_code h, hd, Option.isSome_iff_ne_none.2 hl]

/-- A request that gives `end` on a dump only is told by its operands (R91). -/
theorem decodeRequest_operands (h : r.op = o.code) (hl : o.isDump = true ∨ r.last = none) :
    decodeRequest r = decodeOperands r o := by
  rw [decodeRequest_of_code h]
  rcases hl with hl | hl <;> simp [hl]

theorem decodeOperands_without_start (ho : o.space.isSome = true) (hs : r.start = none) :
    decodeOperands r o = .rejected (.missingOperand .start) := by
  cases o <;> cases ho <;> simp [decodeOperands, hs]

theorem decodeOperands_without_payload (ho : o.isWrite = true) (hs : r.start ≠ none) (hv : r.payload = none) :
    decodeOperands r o = .rejected (.missingOperand .payload) := by
  obtain ⟨a, ha⟩ := Option.ne_none_iff_exists'.1 hs
  cases o <;> cases ho <;> simp [decodeOperands, ha, hv]

theorem decodeOperands_without_on (ho : o.needsOn = true) (hb : r.on = none) :
    decodeOperands r o = .rejected (.missingOperand .on) := by
  cases o <;> cases ho <;> simp [decodeOperands, hb]

end request

/-! Frames (R76, R87). -/

section command
variable (lo hi t v : Byte)

theorem decodeDbgCommand_xdataRd : decodeDbgCommand [cmdXdataRd, lo, hi] = .instr (.fXdataRd (joinAddr hi lo)) := by
  simp [decodeDbgCommand]

theorem decodeDbgCommand_xdataWr : decodeDbgCommand [cmdXdataWr, lo, hi, v] = .instr (.fXdataWr (joinAddr hi lo) v) := by
  simp [decodeDbgCommand]

theorem decodeDbgCommand_eeRd : decodeDbgCommand [cmdEeRd, lo, t, eeRdPad, hi] = .instr (.fEeRd (joinAddr hi lo) t) := by
  simp [decodeDbgCommand]

theorem decodeDbgCommand_eeWr : decodeDbgCommand [cmdEeWr, lo, t, v, hi] = .instr (.fEeWr (joinAddr hi lo) t v) := by
  simp [decodeDbgCommand, cmdEeWr, cmdEeRd]

end command

/-- A write to DBG that has not the length of the disable sequence and the halt commands is told by byte 0 and its length (R87). -/
theorem readFrame_dbg_of_length (p : Params) {bs : List Byte} (h : bs.length ≠ 2) :
    readFrame p (.w .dbg bs) = decodeDbgCommand bs := by
  have other (b c : Byte) : bs ≠ [b, c] := fun e => h (by rw [e]; rfl)
  simp only [readFrame, DisableSeq.bytes, if_neg (other _ _)]

/-- A halt command is one to a frame reader unless it is the disable sequence, which is compared first (R87). -/
theorem readFrame_txHalt {p : Params} {on : Bool} (h : txDbgDis p ≠ txHalt on) : readFrame p (txHalt on) = .instr (.fHalt on) := by
  cases on
  case true => exact (if_neg fun e => h (congrArg (Txn.w .dbg) e.symm)).trans (if_pos rfl)
  case false => exact (if_neg fun e => h (congrArg (Txn.w .dbg) e.symm)).trans ((if_neg (by decide)).trans (if_pos rfl))

/-- A write to DBG outside a mode setter that R76 does not list is no frame (R88). -/
theorem decodeDbgCommand_of_unlisted {p : Params} {bs : List Byte} (h : Txn.listed p (.w .dbg bs) = false) :
    decodeDbgCommand bs = .rejected .unlistedFrame := by
  match bs with
  | [] | [_] | [_, _] | _ :: _ :: _ :: _ :: _ :: _ :: _ => rfl
  | [c, lo, hi] | [c, lo, hi, v] | [c, lo, t, v, hi] => simp_all [Txn.listed, decodeDbgCommand]

/-- A transaction that R76 does not list differs from one that it lists. -/
theorem Txn.ne_of_listed {p : Params} {t u : Txn} (h : Txn.listed p t = false) (hu : Txn.listed p u = true) : t ≠ u := by
  rintro rfl
  rw [h] at hu
  cases hu

/-- A transaction that R76 does not list is no frame (R88). -/
theorem readFrame_of_unlisted {p : Params} {t : Txn} (h : Txn.listed p t = false) : readFrame p t = .rejected .unlistedFrame := by
  match t with
  | .w .isp [] | .w .isp (_ :: _ :: _ :: _) => rfl
  | .w .isp [_] | .w .isp [_, _] => cases h
  | .w .ddc bs => simpa [Txn.listed, readFrame] using h
  | .w .dbg bs =>
    have ne (x : List Byte) (hx : Txn.listed p (.w .dbg x) = true) : bs ≠ x := fun e =>
      Txn.ne_of_listed h hx (congrArg (Txn.w .dbg) e)
    simp only [readFrame, if_neg (ne p.disable.bytes (Machine.listed_txDbgDis p)),
      if_neg (ne [cmdHalt, haltVal] (Machine.listed_txHalt p true)), if_neg (ne [cmdHalt, runVal] (Machine.listed_txHalt p false)),
      decodeDbgCommand_of_unlisted h]
  | .wr d ws n =>
    simp only [readFrame, if_neg (Txn.ne_of_listed h (Machine.listed_txIspQuery p)),
      if_neg (Txn.ne_of_listed h (Machine.listed_txIspData p)), if_neg (Txn.ne_of_listed h (Machine.listed_txDbgData p))]

/-! What is encoded decodes again. -/

/-- A host request is encoded with the code of its operation, with `end` on a dump only, and with its operands (R89, R90). -/
theorem encode_request (p : Params) {i : Instr} {q : Machine.Latches} (h : Machine.latchesOf i = some q) :
    ∃ r, encode p i = .request r ∧ r.op = q.op.code ∧ (q.op.isDump = true ∨ r.last = none) ∧
      decodeOperands r q.op = .instr i := by
  cases i <;> cases h <;> exact ⟨_, rfl, rfl, by simp [Op.isDump, encode.r], rfl⟩

/-- A frame is told by its bytes among the frames of its emitting rule, its address joined from the two bytes again (R76, R86). -/
theorem decode_encode_of_frame (p : Params) {i : Instr} (h : Machine.isRequest i = false) : decode p (encode p i) = .instr i := by
  cases i <;> cases h
  case fIspCtrl e => cases e <;> rfl
  case fHalt h => cases h <;> rfl
  case fXdataRd a => exact (decodeDbgCommand_xdataRd _ _).trans (by rw [Machine.joinAddr_split])
  case fXdataWr a v => exact (decodeDbgCommand_xdataWr _ _ v).trans (by rw [Machine.joinAddr_split])
  case fEeRd a t => exact (decodeDbgCommand_eeRd _ _ t).trans (by rw [Machine.joinAddr_split])
  case fEeWr a t v => exact (decodeDbgCommand_eeWr _ _ t v).trans (by rw [Machine.joinAddr_split])
  case fDbgEn => exact if_pos rfl
  case fDbgDis => exact if_pos rfl
  all_goals rfl

/-! The statements. -/

/-- Settles O1: a request by its record (`encode_request`), a frame by its bytes (`decode_encode_of_frame`). -/
theorem decodeEncodeAgree : Obligations.DecodeEncodeAgree := by
  unfold Obligations.DecodeEncodeAgree
  intro p i
  cases hi : Machine.isRequest i with
  | true =>
    obtain ⟨q, hq⟩ := Machine.latchesOf_request hi
    obtain ⟨r, code, op, last, operands⟩ := encode_request p hq
    calc decode p (encode p i) = decodeRequest r := by rw [code, decode]
      _ = decodeOperands r q.op := decodeRequest_operands op last
      _ = .instr i := operands
  | false => exact decode_encode_of_frame p hi

/-- Settles O2: the words and the dump request compute; the DBG commands are told by byte 0 and their length. -/
theorem wordsDecode : Obligations.WordsDecode := by
  unfold Obligations.WordsDecode
  exact ⟨rfl, rfl, rfl, rfl, rfl, fun p => ⟨rfl, rfl, decodeDbgCommand_xdataRd 0x34 0x12, decodeDbgCommand_xdataWr 0xcd 0xab 0x5a,
    decodeDbgCommand_eeRd 0x02 0x01 0xa0, decodeDbgCommand_eeWr 0xfe 0xff 0xa4 0x00⟩⟩

/-- Settles O3: a DBG write that is not two bytes long is told by byte 0, two-byte ones after the disable sequence. -/
theorem frameReaderFollowsTheTable : Obligations.FrameReaderFollowsTheTable := by
  unfold Obligations.FrameReaderFollowsTheTable
  intro p a v lo hi c t
  have command {bs : List Byte} {i : Instr} (hn : bs.length ≠ 2) (hd : decodeDbgCommand bs = .instr i) :
      readFrame p (.w .dbg bs) = .instr i := (readFrame_dbg_of_length p hn).trans hd
  refine ⟨rfl, rfl, if_pos rfl, if_pos rfl, fun h => ?halt, fun h => ?run, ?xdataRd, ?xdataWr, ?eeRd, ?eeWr, rfl, rfl, rfl,
    readFrame_of_unlisted⟩
  case halt => exact readFrame_txHalt (on := true) fun e => h (Txn.w.inj e).2
  case run => exact readFrame_txHalt (on := false) fun e => h (Txn.w.inj e).2
  case xdataRd => exact command (by simp) (decodeDbgCommand_xdataRd lo hi)
  case xdataWr => exact command (by simp) (decodeDbgCommand_xdataWr lo hi v)
  case eeRd => exact command (by simp) (decodeDbgCommand_eeRd lo hi c)
  case eeWr => exact command (by simp) (decodeDbgCommand_eeWr lo hi c v)

/-- Settles O4: the record has no `end`, or is a dump's, so its operands alone say what it asks (`decodeRequest_operands`). -/
theorem requestsDecodeWithTheirDefaults : Obligations.RequestsDecodeWithTheirDefaults := by
  unfold Obligations.RequestsDecodeWithTheirDefaults
  intro r a v b
  refine ⟨fun start last => ?range, fun start => ?dump, fun last => ?mode⟩
  case range =>
    have operands (o : Op) (hc : r.op = o.code) : decodeRequest r = decodeOperands r o := decodeRequest_operands hc (.inr last)
    refine ⟨fun op => ?_, fun op => ?_, fun op => ?_, fun payload => ⟨fun op => ?_, fun op => ?_, fun op => ?_⟩⟩
    · simp [operands .ispRead op, decodeOperands, start, readLenDefault]
    · simp [operands .xdataRead op, decodeOperands, start, readLenDefault, haltDefault]
    · simp [operands .eepromRead op, decodeOperands, start, readLenDefault, haltDefault, eepromTargetDefault]
    · simp [operands .ispWrite op, decodeOperands, start, payload]
    · simp [operands .xdataWrite op, decodeOperands, start, payload, haltDefault]
    · simp [operands .eepromWrite op, decodeOperands, start, payload, haltDefault, eepromTargetDefault]
  case dump =>
    refine ⟨fun op => ?_, fun op => ?_, fun op => ?_⟩
    · simp [decodeRequest_operands (o := .ispDump) op (.inl rfl), decodeOperands, start]
    · simp [decodeRequest_operands (o := .xdataDump) op (.inl rfl), decodeOperands, start, haltDefault]
    · simp [decodeRequest_operands (o := .eepromDump) op (.inl rfl), decodeOperands, start, haltDefault, eepromTargetDefault]
  case mode =>
    have operands (o : Op) (hc : r.op = o.code) : decodeRequest r = decodeOperands r o := decodeRequest_operands hc (.inr last)
    refine ⟨operands .ispEnabled, operands .dbgEnabled, operands .ispReset,
      fun on => ⟨fun op => ?_, fun op => ?_, fun op => ?_, fun op => ?_⟩⟩
    · simp [operands .ispSetEnabled op, decodeOperands, on, forceDefault]
    · simp [operands .dbgSetEnabled op, decodeOperands, on, forceDefault]
    · simp [operands .dbgSetAuto op, decodeOperands, on]
    · simp [operands .dbgHalt op, decodeOperands, on]

end Sys2Proof
end

section
/-! PROOF. Malformed requests are refused (R91), and every frame the engine emits is one R76 lists (R88). -/

namespace Sys2Proof.Machine

/-- A request the decoder rejects is refused, with no step (R91). -/
theorem step_of_rejected {s : State} {r : Request} {rest : List HostAct} {e : DecodeError} (hl : s.life = .ready)
    (hh : s.host = .request r :: rest) (hd : decodeRequest r = .rejected e) : step s = .refused (.malformed e) := by
  simp only [step, hl, fetch, hh, decode, hd]

/-- Settles O5: each list of codes is the list of the operations of a kind, and the decoder names the first defect it meets. -/
theorem malformedRequestsAreRefused : Obligations.MalformedRequestsAreRefused := by
  unfold Obligations.MalformedRequestsAreRefused
  intro s r rest hl hh
  have refused {e : DecodeError} (hd : decodeRequest r = .rejected e) : step s = .refused (.malformed e) :=
    step_of_rejected hl hh hd
  refine ⟨fun op => ?reserved, fun op last => ?last, fun op start => ?start, fun op last start payload => ?payload,
    fun op last on => ?on⟩
  case reserved => exact refused (decodeRequest_of_reserved op)
  case last =>
    obtain ⟨o, ho, hc⟩ := Op.of_mem_codes (fun o => !o.isDump) op
    exact refused (decodeRequest_of_end hc (by simpa using ho) last)
  case start =>
    rcases op with op | ⟨op, last⟩
    · obtain ⟨o, ho, hc⟩ := Op.of_mem_codes Op.isDump op
      have ranged : o.space.isSome = true := by cases o <;> cases ho <;> rfl
      exact refused ((decodeRequest_operands hc (.inl ho)).trans (decodeOperands_without_start ranged start))
    · obtain ⟨o, ho, hc⟩ := Op.of_mem_codes (fun o => o.space.isSome && !o.isDump) op
      exact refused ((decodeRequest_operands hc (.inr last)).trans (decodeOperands_without_start (Bool.and_eq_true_iff.1 ho).1 start))
  case payload =>
    obtain ⟨o, ho, hc⟩ := Op.of_mem_codes Op.isWrite op
    exact refused ((decodeRequest_operands hc (.inr last)).trans (decodeOperands_without_payload ho start payload))
  case on =>
    obtain ⟨o, ho, hc⟩ := Op.of_mem_codes Op.needsOn op
    exact refused ((decodeRequest_operands hc (.inr last)).trans (decodeOperands_without_on ho on))

@[simp] theorem eventOf_listed (p : Params) (x : Txn) (a : Answer) : (eventOf x a).listed p = x.listed p := by cases x <;> rfl

/-- From `s` to `t` the events between, recorded in the trace, have frames that R76 lists (R88). -/
def EmitsListed (s t : State) : Prop := ∃ evs, Records s evs t ∧ ∀ e ∈ evs, e.listed s.cfg = true

theorem EmitsListed.silent {s t : State} (h : Records s [] t) : EmitsListed s t := ⟨[], h, by simp⟩

theorem EmitsListed.trans {s t u : State} (h : EmitsListed s t) (h' : EmitsListed t u) : EmitsListed s u := by
  obtain ⟨es, ht, hes⟩ := h
  obtain ⟨es', hu, hes'⟩ := h'
  exact ⟨es ++ es', ht.trans hu, fun e he => (List.mem_append.1 he).elim (hes e) fun he => ht.cfg ▸ hes' e he⟩

/-- What such a run shows between two states whose traces are those of its ends. -/
theorem EmitsListed.shown {s t u v : State} (h : EmitsListed u v) (cfg : s.cfg = u.cfg) (before : s.trace = u.trace)
    (after : t.trace = v.trace) : ∃ evs, t.trace = s.trace ++ evs ∧ ∀ e ∈ evs, e.listed s.cfg = true := by
  obtain ⟨evs, run, listed⟩ := h
  exact ⟨evs, by rw [after, before, run.trace], cfg ▸ listed⟩

theorem transact_emitsListed {x : Txn} {s : State} (h : Txn.listed s.cfg x = true) : (transact x s).Ends (EmitsListed s) :=
  transact_ends x s h fun a _ _ =>
    have listed : ∀ e ∈ [eventOf x a], e.listed s.cfg = true := by simpa using h
    ⟨⟨_, ⟨rfl, rfl, rfl, rfl, rfl⟩, listed⟩, fun _ => ⟨_, ⟨rfl, rfl, rfl, rfl, rfl⟩, listed⟩⟩

theorem sleep_emitsListed (ms : Nat) (s : State) : EmitsListed s (sleep ms s) :=
  ⟨_, sleep_records ms s, by simp [Event.listed, txnOf]⟩

/-- Every primitive of the engine emits listed frames alone. -/
theorem emitsListed_closed : Closed EmitsListed where
  refl _ := .silent .silent
  trans := .trans
  keep h := .silent ⟨by simpa using h.trace, h.responses, h.latches, h.cfg, h.host⟩
  plain _ _ h := transact_emitsListed h.listed
  halt on s := by
    rw [haltCtl_run]
    exact (transact_emitsListed (listed_txHalt _ on)).bind
      (fun _ t h => (h.trans (.silent .silent)).trans (sleep_emitsListed tHalt (t.setHalted on))) fun _ h => h
  disable _ _ := transact_emitsListed (listed_txDbgDis _)
  sleep := sleep_emitsListed

/-- So does construction, whose one frame is the probe (R186). -/
theorem construction_emitsListed (s : State) : (construction.run s).Ends (EmitsListed s) := by
  have probe := transact_emitsListed (listed_txCtorProbe s.cfg)
  rw [construction_run]
  split <;> rename_i answers <;> rw [answers] at probe <;> exact probe

/-- Settles O6: every request's program is made of the primitives (`Closed.request`); its acceptance and its answer emit nothing. -/
theorem emittedFramesAreListed : Obligations.EmittedFramesAreListed := by
  unfold Obligations.EmittedFramesAreListed
  intro s t
  refine ⟨fun i hi hx => ?request, fun hx => ?construction⟩
  case request =>
    obtain ⟨q, hq⟩ := latchesOf_request hi
    have ends := emitsListed_closed.request hq (fun _ _ _ => .silent .silent) s
    rw [exec_request hq] at hx
    split at hx
    case isFalse => cases hx
    cases e : (programOf q.op).run (s.accept q) <;> rw [e] at ends hx <;> cases hx <;> exact ends.shown rfl rfl rfl
  case construction =>
    have ends := construction_emitsListed s
    unfold construct at hx
    cases e : construction.run s <;> rw [e] at ends hx <;> cases hx <;> exact ends.shown rfl rfl rfl

end Sys2Proof.Machine
end

section
/-! PROOF. The validator and the checks after the gate (40_validator.md, R168). -/

namespace Sys2Proof.Machine

/-! The window (R105 to R110). -/

/-- The three windows start at 0 (R105), so the validator is one chain of tests for every space (R108). -/
theorem validate_eq (sp : Space) (a n : Int) : validate sp a n =
    if a < 0 then some (.rangeError sp .start a 0)
    else if a > (windowOf sp).2 then some (.rangeError sp .start a (windowOf sp).2)
    else if a + n - 1 < 0 then some (.rangeError sp .stop (a + n - 1) 0)
    else if a + n - 1 > (windowOf sp).2 then some (.rangeError sp .stop (a + n - 1) (windowOf sp).2)
    else none := by
  cases sp with
  | isp => exact validate_isp a n
  | xdata => exact validate_xdata a n
  | eeprom => exact validate_eeprom a n

/-- The validator is exact (R106): `validate_window` has the ranges inside, the chain's four tests the ranges outside. -/
theorem validate_eq_none_iff (sp : Space) (a n : Int) : validate sp a n = none ↔ InWindow (windowOf sp).2 a n := by
  refine ⟨fun admitted => ?_, validate_window rfl⟩
  rw [validate_eq] at admitted
  split_ifs at admitted
  exact ⟨by omega, by omega, by omega, by omega⟩

/-- Settles O7: each hypothesis picks one branch of the chain of tests (`validate_eq`). -/
theorem validatorChecksTheWindow : Obligations.ValidatorChecksTheWindow := by
  unfold Obligations.ValidatorChecksTheWindow
  intro sp start length hi hmax
  obtain rfl : hi = (windowOf sp).2 := hmax.trans (by cases sp <;> rfl)
  have positive : 0 < (windowOf sp).2 := by cases sp <;> decide
  refine ⟨validate_eq_none_iff sp start length, fun below => ?_, fun above => ?_, fun h0 h1 below => ?_, fun h0 h1 above => ?_⟩ <;>
    rw [validate_eq]
  · rw [if_pos below]
  · rw [if_neg (by omega), if_pos above]
  · rw [if_neg (by omega), if_neg (by omega), if_pos below]
  · rw [if_neg (by omega), if_neg (by omega), if_neg (by omega), if_pos above]

/-! A range request whose checks fail (R106, R111). -/

theorem Plan.check_of_noPayload {p : Plan} (hw : p.write = true) (hp : p.payload = none) (s : State) :
    p.check.run s = .raised .invalidPayload s := by
  rw [Plan.check_run, if_pos (by simp [hw, hp])]
  rfl

theorem Plan.check_of_invalid {p : Plan} {e : Err} (hpay : p.write = true → p.payload ≠ none)
    (hv : validate p.space p.start p.length = some e) (s : State) : p.check.run s = .raised e s := by
  have hasPayload : ¬(p.write && p.payload.isNone) = true := by simpa using hpay
  rw [Plan.check_run, if_neg hasPayload, hv]
  rfl

/-- The plan `p` of a range request whose checks end in the error `e`. -/
structure Plan.Rejects (p : Plan) (i : Instr) (q : Latches) (e : Err) : Prop where
  latches : latchesOf i = some q
  plan : q.plan = some p
  check : ∀ s, p.check.run s = .raised e s

theorem rejects_of_noPayload {i : Instr} {sp : Space} {a : Int} (h : rangeAsked i = some (sp, a, none, true)) :
    ∃ q, ∃ p : Plan, p.Rejects i q .invalidPayload ∧ p.space = sp := by
  obtain ⟨q, hq, hplan, -, hpay, -⟩ := plan_of_asked h
  have payload : q.payload = none := Option.map_eq_none_iff.1 (hpay rfl).symm
  exact ⟨q, _, ⟨hq, hplan, Plan.check_of_noPayload rfl payload⟩, rfl⟩

theorem rejects_of_invalid {i : Instr} {sp : Space} {a n : Int} {w : Bool} {e : Err}
    (h : rangeAsked i = some (sp, a, some n, w)) (hv : validate sp a n = some e) :
    ∃ q, ∃ p : Plan, p.Rejects i q e ∧ p.space = sp := by
  obtain ⟨q, hq, hplan, -, hpay, -⟩ := plan_of_asked h
  have payload (hw : w = true) : q.payload ≠ none := fun hn => by simpa [hn] using hpay hw
  exact ⟨q, _, ⟨hq, hplan, Plan.check_of_invalid payload hv⟩, rfl⟩

/-- The gate of a debug request that lets it pass, where the MCU cannot write: debug mode found on, or switched on under the policy
(R122). -/
theorem Plan.gate_passed {p : Plan} {s : State} (hsp : p.space ≠ .isp) (h : s.Quiet) (hs : s.target.Settled)
    (hd : s.target.debugMode = true ∨ s.debugAutoEnable = true) : ∃ ph b g,
    p.gate.run (p.move true s) = .ok () (State.after { s with autoTaken := s.debugAutoEnable, phase := ph }
      (enableEvents s.cfg s.target.debugMode b) g) ∧ g.SameCore (s.target.inDebug true) := by
  obtain ⟨ph, b, g, run, hg⟩ := debugGuardEnter_turned (s := p.move true s) h.1 hs hd
  rw [State.Quiet.turned (s := p.move true s) h] at hg
  exact ⟨ph, b, g, (Plan.gate_debug hsp _).trans run, hg⟩

section rejects
variable {p : Plan} {i : Instr} {q : Latches} {e : Err} (h : p.Rejects i q e) {s : State} (hl : s.life = .ready)
include h hl

/-- A rejected request is answered with its error as soon as the gate has let it pass: the gate's events are all there are. -/
theorem Plan.Rejects.exec_of_gate {auto : Bool} {ph : Phase} {evs : List Event} {g : Target}
    (passed : p.gate.run (p.move true (s.accept q)) = .ok () (State.after { s.accept q with autoTaken := auto, phase := ph } evs g)) :
    exec i s = .next ((s.after evs g).answered i (.error e)) := by
  rw [exec_range h.latches h.plan s hl, Plan.program_run, passed, Res.bind_ok, h.check, Res.bind_raised, State.answered, h.latches]
  rfl

/-- A rejected ISP request, ISP mode on: the query alone. -/
theorem Plan.Rejects.exec_isp (hs : s.Quiet) (hsp : p.space = .isp) (hon : s.target.IspOn) (hw : s.target.owedWrite = 0) :
    exec i s = .next ((s.after [rOk .isp [0x6f] [s.target.peek (.isp 0x6f)]] { s.target with ispPtr := 0x6f }).answered i
      (.error e)) :=
  h.exec_of_gate hl (Plan.gate_isp (s := s.accept q) hsp hs hw hon)

/-- A rejected debug request, debug mode on or the policy taken: debug mode is on afterwards (R163) and nothing else has changed. -/
theorem Plan.Rejects.exec_debug (hs : s.Quiet) (hsp : p.space ≠ .isp) (ht : s.target.Settled)
    (hd : s.target.debugMode = true ∨ s.debugAutoEnable = true) : ∃ b g,
    exec i s = .next ((s.after (enableEvents s.cfg s.target.debugMode b) g).answered i (.error e)) ∧
      g.SameBytes s.target ∧ g.Modes true s.target.mcuHalted s.target.ispPtr := by
  obtain ⟨ph, b, g, passed, hg⟩ := Plan.gate_passed (s := s.accept q) hsp hs ht hd
  have bytes : g.SameBytes s.target := fun x => (hg.peek x).trans (by cases x <;> rfl)
  exact ⟨b, g, h.exec_of_gate hl passed, bytes, hg.modes⟩

/-- A rejected debug request, debug mode on: the probe alone. -/
theorem Plan.Rejects.exec_probe (hs : s.Quiet) (hsp : p.space ≠ .isp) (ha : s.target.Answers) : ∃ b g,
    exec i s = .next ((s.after [rOk .dbg [] [b]] g).answered i (.error e)) ∧
      g.SameBytes s.target ∧ g.Modes true s.target.mcuHalted s.target.ispPtr := by
  obtain ⟨on, settled⟩ := ha
  simpa only [enableEvents, on, if_true] using h.exec_debug hl hs hsp settled (.inl on)

end rejects

/-- Settles O37. -/
theorem thePayloadCheckComesNext : Obligations.ThePayloadCheckComesNext := by
  unfold Obligations.ThePayloadCheckComesNext
  intro i s sp a hl hs asked
  obtain ⟨q, p, rejects, rfl⟩ := rejects_of_noPayload asked
  exact ⟨rejects.exec_isp hl hs, rejects.exec_probe hl hs⟩

/-- Settles O38: under the policy the gate has switched debug mode on, and no exit follows the error. -/
theorem theWindowCheckComesThird : Obligations.TheWindowCheckComesThird := by
  unfold Obligations.TheWindowCheckComesThird
  intro i s sp a n w e hl hs asked hv
  obtain ⟨q, p, rejects, rfl⟩ := rejects_of_invalid asked hv
  refine ⟨rejects.exec_isp hl hs, rejects.exec_probe hl hs, fun hsp off settled policy => ?_⟩
  obtain ⟨b, g, run, kept⟩ := rejects.exec_debug hl hs hsp settled (.inr policy)
  rw [off] at run
  exact ⟨g, run, kept⟩

end Sys2Proof.Machine
end

section
/-! PROOF. The disable sequence and the cached halted flag (R119). -/

namespace Sys2Proof.Machine

/-- Two facts of the same end hold of it together. -/
theorem Res.Ends.and {α : Type} {P Q : State → Prop} {r : Res α} (h : r.Ends P) (h' : r.Ends Q) : r.Ends fun s => P s ∧ Q s := by
  cases r with
  | ok a s => exact ⟨h, h'⟩
  | raised e s => exact ⟨h, h'⟩
  | hung s => exact ⟨h, h'⟩
  | fault f => exact h
  | refused q => exact h

/-- Events one after the other: the later ones are judged with the flag the earlier ones leave. -/
theorem neverDisabledHalted_append (dis : List Byte) (f : Bool) (es es' : List Event) :
    neverDisabledHalted dis f (es ++ es') = (neverDisabledHalted dis f es && neverDisabledHalted dis (flagAfter f es) es') := by
  induction f, es using neverDisabledHalted.induct with
  | case1 f => rfl
  | case2 f bs a es ih =>
    have follows : flagAfter f (.w .dbg bs a :: es) = flagAfter (flagAfter f [.w .dbg bs a]) es := flagAfter_append f [_] es
    rw [List.cons_append, neverDisabledHalted, neverDisabledHalted, ih, follows, Bool.and_assoc]
  | case3 f e es other ih =>
    have keeps : flagAfter f (e :: es) = flagAfter f es := flagAfter_cons_of_ne f es (fun _ => other _ _) fun _ => other _ _
    rw [List.cons_append, neverDisabledHalted.eq_3 _ _ _ _ other, neverDisabledHalted.eq_3 _ _ _ _ other, ih, keeps]

/-- A transaction is safe where it is not the disable sequence, or the flag is false. -/
theorem neverDisabledHalted_eventOf {p : Params} {f : Bool} {x : Txn} (h : f = true → x ≠ txDbgDis p) (a : Answer) :
    neverDisabledHalted p.disable.bytes f [eventOf x a] = true := by
  cases x with
  | wr d ws n => rfl
  | w d bs =>
    cases d with
    | isp => rfl
    | ddc => rfl
    | dbg =>
      have safe : bs ≠ p.disable.bytes ∨ f = false := by
        cases f with
        | false => exact .inr rfl
        | true => exact .inl fun e => h rfl (congrArg (Txn.w .dbg) e)
      simpa [eventOf, neverDisabledHalted] using safe

/-- The frames besides halt control and the disable sequence differ from the latter in device, kind or length (R76). -/
theorem PlainFrame.ne_txDbgDis {p : Params} {x : Txn} (h : PlainFrame p x) : x ≠ txDbgDis p := by
  cases h
  case xdataRd | xdataWr | eeRd | eeWr => exact fun e => absurd (congrArg List.length (Txn.w.inj e).2) (by simp [DisableSeq.bytes])
  all_goals nofun

/-- From `s` to `t` no disable sequence is issued while the flag is true. -/
def DisablesSafely (s t : State) : Prop := ∃ evs, t.trace = s.trace ++ evs ∧
  (HaltDistinct s.cfg → neverDisabledHalted s.cfg.disable.bytes s.haltedFlag evs = true)

theorem DisablesSafely.silent {s t : State} (h : t.trace = s.trace) : DisablesSafely s t := ⟨[], by simpa using h, fun _ => rfl⟩

/-- Runs are composed by the flag that the first one leaves (`FlagFollows`). -/
theorem DisablesSafely.trans {s t u : State} (h : FlagFollows s t ∧ DisablesSafely s t) (h' : DisablesSafely t u) :
    DisablesSafely s u := by
  obtain ⟨⟨cfg, es₀, trace₀, flag⟩, es, trace, safe⟩ := h
  obtain rfl : es₀ = es := List.append_cancel_left (trace₀.symm.trans trace)
  obtain ⟨es', trace', safe'⟩ := h'
  refine ⟨es₀ ++ es', by rw [trace', trace, List.append_assoc], fun hd => ?_⟩
  rw [cfg, flag hd] at safe'
  rw [neverDisabledHalted_append, safe hd, safe' hd]
  rfl

theorem transact_disablesSafely {x : Txn} {s : State} (hl : Txn.listed s.cfg x = true)
    (hx : HaltDistinct s.cfg → s.haltedFlag = true → x ≠ txDbgDis s.cfg) : (transact x s).Ends (DisablesSafely s) :=
  transact_ends x s hl fun a _ _ =>
    have safe (hd : HaltDistinct s.cfg) := neverDisabledHalted_eventOf (hx hd) a
    ⟨⟨_, rfl, safe⟩, fun _ => ⟨_, rfl, safe⟩⟩

/-- Halt control is a frame that is not the disable sequence, then a delay. -/
theorem haltCtl_disablesSafely (on : Bool) (s : State) : ((haltCtl on).run s).Ends (DisablesSafely s) := by
  rw [haltCtl_run]
  refine (transact_disablesSafely (listed_txHalt _ on) fun hd _ e => hd.ne_txHalt on e.symm).bind (fun _ t h => ?_) fun _ h => h
  obtain ⟨evs, trace, safe⟩ := h
  refine ⟨evs ++ [.d tHalt], ?_, fun hd => ?_⟩
  · rw [sleep_trace, ← List.append_assoc, ← trace]
    rfl
  · rw [neverDisabledHalted_append, safe hd]
    rfl

/-- Every primitive of the engine disables safely: the disable sequence itself is issued with the flag false alone. -/
theorem disablesSafely_closed : Closed fun s t => FlagFollows s t ∧ DisablesSafely s t where
  refl s := ⟨flagFollows_closed.refl s, .silent rfl⟩
  trans h h' := ⟨h.1.trans h'.1, .trans h h'.2⟩
  keep h := ⟨flagFollows_closed.keep h, .silent h.trace⟩
  plain x s h := (flagFollows_closed.plain x s h).and (transact_disablesSafely h.listed fun _ _ => h.ne_txDbgDis)
  halt on s := (haltCtl_flagFollows on s).and (haltCtl_disablesSafely on s)
  disable s hf := (flagFollows_closed.disable s hf).and (transact_disablesSafely (listed_txDbgDis _) fun _ ht => by simp [hf] at ht)
  sleep ms s := ⟨sleep_flagFollows ms s, [.d ms], rfl, fun _ => rfl⟩

/-- Settles O18: the induction over the engine (`Closed.request`) with the flag carried along. -/
theorem neverDisabledWhileHalted : Obligations.NeverDisabledWhileHalted := by
  unfold Obligations.NeverDisabledWhileHalted
  intro i s t evs hd hi hx ht
  obtain ⟨q, hq⟩ := latchesOf_request hi
  rw [exec_request hq] at hx
  split at hx
  case isFalse => cases hx
  have ends := disablesSafely_closed.request hq (fun _ _ _ => ⟨.of_eq rfl rfl rfl, .silent rfl⟩) s
  have safely : DisablesSafely s t := by
    cases e : (programOf q.op).run (s.accept q) <;> rw [e] at ends hx <;> cases hx <;> exact ends.2
  obtain ⟨evs', ht', safe⟩ := safely
  rw [← List.append_cancel_left (ht'.symm.trans ht)]
  exact safe hd

end Sys2Proof.Machine
end

section
/-! PROOF. The requests of the mode gate (R112 to R120). -/

namespace Sys2Proof.Machine

/-! What a mode request runs. -/

theorem exec_ispEnabled_run {s : State} (hl : s.life = .ready) : exec .ispEnabled s =
    ((queryIspEnabled.run (s.accept { op := .ispEnabled })).bind fun b s => .ok (.flag b) s).finish := by
  rw [exec_request rfl, if_pos hl]
  exact congrArg Res.finish (Prog.run_bind ..)

theorem exec_dbgEnabled_run {s : State} (hl : s.life = .ready) : exec .dbgEnabled s =
    ((queryDebugEnabled.run (s.accept { op := .dbgEnabled })).bind fun b s => .ok (.flag b) s).finish := by
  rw [exec_request rfl, if_pos hl]
  exact congrArg Res.finish (Prog.run_bind ..)

theorem exec_dbgSetEnabled_run (on force : Bool) {s : State} (hl : s.life = .ready) : exec (.dbgSetEnabled on force) s =
    (((setDebugEnabled on force).run (s.accept { op := .dbgSetEnabled, on := on, force := force })).bind
      fun _ s => .ok .void s).finish := by
  rw [exec_request rfl, if_pos hl]
  exact congrArg Res.finish ((withLatches_run _ rfl).trans (Prog.run_bind ..))

/-! A transaction whose outcome the transport reports by itself, without an effect (R164). -/

section overridden
variable {x : Txn} {s : State} {a : Answer} {fs : List Fate} (ho : s.oracle = .override a false :: fs)
include ho

theorem transact_overridden_ok {rs : List Byte} (ha : outcomeOf x a = .ok rs) :
    transact x s = .ok rs (State.after { s with oracle := fs } [eventOf x (.ok rs)] (s.turned 1)) := by
  rw [transact_override ho, ha]
  simp [State.conclude, State.record, State.after, State.turned_one, State.mcuActs, State.dropFate, ho]

theorem transact_overridden_err {k : ErrClass} (ha : outcomeOf x a = .err k) :
    transact x s = .raised (.transportError k) (State.after { s with oracle := fs } [eventOf x (.err k)] (s.turned 1)) := by
  rw [transact_override ho, ha]
  simp [State.conclude, raise, State.record, State.after, State.turned_one, State.mcuActs, State.dropFate, ho]

end overridden

/-- An MCU that has nothing to write takes no turn. -/
theorem State.turned_of_mcu_nil {s : State} (h : s.mcu = []) (n : Nat) : s.turned n = s.target := by
  rw [State.turned, h, List.take_nil, Target.turns_nil]

/-! ISP mode (R112, R113). -/

/-- Settles O25: the query's byte is the register's (`State.Quiet.queryIsp`) or the one the transport reports. -/
theorem ispEnabledTestsTheTopBit : Obligations.IspEnabledTestsTheTopBit := by
  unfold Obligations.IspEnabledTestsTheTopBit
  intro s
  refine ⟨fun hs hw => ?device, fun a fs hl ho => ⟨s.turned 1, fun b ha => ?byte, fun k ha => ?failure, fun hm => ?target⟩⟩
  case device =>
    rw [exec_ispEnabled_run hs.1, State.Quiet.queryIsp (s := s.accept _) hs.quiet hw]
    rfl
  case byte =>
    have query := transact_overridden_ok (x := txIspQuery) (s := s.accept { op := .ispEnabled }) ho (rs := [b]) (by rw [ha]; rfl)
    rw [exec_ispEnabled_run hl, queryIspEnabled_run, query]
    rfl
  case failure =>
    have query := transact_overridden_err (x := txIspQuery) (s := s.accept { op := .ispEnabled }) ho (k := k) (by rw [ha]; rfl)
    rw [exec_ispEnabled_run hl, queryIspEnabled_run, query]
    rfl
  case target => exact State.turned_of_mcu_nil hm 1

/-- The control write stores its byte in register 0x6f (R78, R113). -/
theorem State.Quiet.ispCtrl {s : State} (h : s.Quiet) (hwf : s.target.wf) (hw : s.target.owedWrite = 0) (on : Bool) : ∃ g,
    transact (txIspCtrl on) s = .ok [] (s.after [wOk .isp [0x6f, if on then 0x80 else 0x00]] g) ∧
      g.Stores s.target (.isp 0x6f) (if on then 0x80 else 0x00) ∧ g.Modes s.target.debugMode s.target.mcuHalted 0x6f := by
  have noReset : ¬((0x6f : Byte) = 0xee ∧ (if on then (0x80 : Byte) else 0x00) = 0x03) := by rintro ⟨h, -⟩; cases h
  exact ⟨_, h.ispWr hw noReset, Target.ispWritten_stores hwf _ _⟩

section setIsp
variable {s : State} (h : s.Quiet) (hw : s.target.owedWrite = 0) {on : Bool}
include h hw

/-- ISP mode found as it is asked for: the query alone. -/
theorem State.Quiet.setIsp_found (found : (s.target.peek (.isp 0x6f)).getLsbD 7 = on) : (setIspEnabled on false).run s =
    .ok () (s.after [rOk .isp [0x6f] [s.target.peek (.isp 0x6f)]] { s.target with ispPtr := 0x6f }) := by
  rw [setIspEnabled_run, if_neg (by simp), h.queryIsp hw, Res.bind_ok, if_pos found]

/-- ISP mode found otherwise: the query, then the control write. -/
theorem State.Quiet.setIsp_write (hwf : s.target.wf) (found : (s.target.peek (.isp 0x6f)).getLsbD 7 ≠ on) : ∃ g,
    (setIspEnabled on false).run s = .ok () (s.after
      [rOk .isp [0x6f] [s.target.peek (.isp 0x6f)], wOk .isp [0x6f, if on then 0x80 else 0x00]] g) ∧
    g.Stores s.target (.isp 0x6f) (if on then 0x80 else 0x00) ∧ g.Modes s.target.debugMode s.target.mcuHalted 0x6f := by
  have queried : (s.after [rOk .isp [0x6f] [s.target.peek (.isp 0x6f)]] { s.target with ispPtr := 0x6f }).Quiet := h.after _ rfl
  obtain ⟨g, write, stores, modes⟩ := queried.ispCtrl hwf hw on
  refine ⟨g, ?_, ⟨stores.1, fun x hx => (stores.2 x hx).trans (by cases x <;> rfl)⟩, modes⟩
  rw [setIspEnabled_run, if_neg (by simp), h.queryIsp hw, Res.bind_ok, if_neg found, write, Res.bind_ok, State.after_after]
  rfl

/-- With `force` the control write alone (R116). -/
theorem State.Quiet.setIsp_force (hwf : s.target.wf) (on : Bool) : ∃ g,
    (setIspEnabled on true).run s = .ok () (s.after [wOk .isp [0x6f, if on then 0x80 else 0x00]] g) ∧
    g.Stores s.target (.isp 0x6f) (if on then 0x80 else 0x00) ∧ g.Modes s.target.debugMode s.target.mcuHalted 0x6f := by
  obtain ⟨g, write, kept⟩ := h.ispCtrl hwf hw on
  exact ⟨g, by rw [setIspEnabled_run, if_pos rfl, write, Res.bind_ok], kept⟩

end setIsp

/-- Settles O26: the query decides unless the request forces, and the write is one control frame (`State.Quiet.ispCtrl`). -/
theorem setIspEnabled_holds : Obligations.SetIspEnabled := by
  unfold Obligations.SetIspEnabled
  intro s on hs hwf hw q v
  have quiet (r : Latches) : (s.accept r).Quiet := hs.quiet
  refine ⟨fun found => ?noop, fun found => ?write, ?force⟩
  case noop =>
    rw [exec_ispSetEnabled on false hs.1, (quiet _).setIsp_found hw (Bool.eq_iff_iff.2 found)]
    rfl
  case write =>
    obtain ⟨g, run, kept⟩ := (quiet { op := .ispSetEnabled, on := on, force := false }).setIsp_write (on := on) hw hwf
      fun e => found (Bool.eq_iff_iff.1 e)
    exact ⟨g, by rw [exec_ispSetEnabled on false hs.1, run]; rfl, kept⟩
  case force =>
    obtain ⟨g, run, kept⟩ := (quiet { op := .ispSetEnabled, on := on, force := true }).setIsp_force hw hwf on
    exact ⟨g, by rw [exec_ispSetEnabled on true hs.1, run]; rfl, kept⟩

/-! Debug mode (R114 to R118). -/

/-- A target that differs in the data port and in debug mode keeps the rest. -/
theorem Target.SameCore.kept {g t : Target} {on : Bool} (h : g.SameCore (t.inDebug on)) :
    g.SameBytes t ∧ g.Modes on t.mcuHalted t.ispPtr :=
  ⟨fun x => (h.peek x).trans (by cases x <;> rfl), h.modes⟩

/-- Settles O28: the probe alone decides (`queryDebugEnabled_run`). -/
theorem dbgEnabledProbes : Obligations.DbgEnabledProbes := by
  unfold Obligations.DbgEnabledProbes
  intro s
  refine ⟨fun hs ha => ?on, fun hs ht hd => ?off,
    fun a fs hl ho => ⟨s.turned 1, fun b ha => ?byte, fun ha => ?unreachable, fun ha => ?other, fun hm => ?target⟩⟩
  case on =>
    obtain ⟨b, g, query, hg⟩ := State.Quiet.queryDebug_on (s := s.accept { op := .dbgEnabled }) hs.quiet ha
    exact ⟨b, g, by rw [exec_dbgEnabled_run hs.1, query]; rfl, hg.peek, ha.1 ▸ hg.modes⟩
  case off =>
    rw [exec_dbgEnabled_run hs.1, State.Quiet.queryDebug_off (s := s.accept _) hs.quiet hd ht]
    rfl
  case byte =>
    have probe := transact_overridden_ok (x := txDbgProbe) (s := s.accept { op := .dbgEnabled }) ho (rs := [b]) (by rw [ha]; rfl)
    rw [exec_dbgEnabled_run hl, queryDebugEnabled_run, probe]
    rfl
  case unreachable =>
    have probe := transact_overridden_err (x := txDbgProbe) (s := s.accept { op := .dbgEnabled }) ho (by rw [ha]; rfl)
    rw [exec_dbgEnabled_run hl, queryDebugEnabled_run, probe]
    rfl
  case other =>
    have probe := transact_overridden_err (x := txDbgProbe) (s := s.accept { op := .dbgEnabled }) ho (by rw [ha]; rfl)
    rw [exec_dbgEnabled_run hl, queryDebugEnabled_run, probe]
    rfl
  case target => exact State.turned_of_mcu_nil hm 1

/-- Settles O29: the probe finds debug mode on or the write switches it on (`setDebug_on_turned`); with `force` the write alone. -/
theorem enablingDebugMode : Obligations.EnablingDebugMode := by
  unfold Obligations.EnablingDebugMode
  intro s hs ht en
  have unturned (q : Latches) (n : Nat) : (s.accept q).turned n = s.target := hs.quiet.turned n
  have unforced : ∃ b g, exec (.dbgSetEnabled true false) s =
      .next ((s.after (enableEvents s.cfg s.target.debugMode b) g).answered (.dbgSetEnabled true false) (.ok .void)) ∧
      g.SameBytes s.target ∧ g.Modes true s.target.mcuHalted s.target.ispPtr := by
    obtain ⟨b, g, run, hg⟩ := setDebug_on_turned (s := s.accept { op := .dbgSetEnabled, on := true, force := false }) hs.2.1 ht
    rw [unturned] at hg
    exact ⟨b, g, by rw [exec_dbgSetEnabled_run true false hs.1, run]; rfl, hg.kept⟩
  refine ⟨fun hd => ?on, fun hd => ?off, ?force⟩
  case on => rwa [hd] at unforced
  case off =>
    rw [hd] at unforced
    obtain ⟨b, g, run, kept⟩ := unforced
    exact ⟨g, run, kept⟩
  case force =>
    obtain ⟨g, run, hg⟩ := enable_turned (s := s.accept { op := .dbgSetEnabled, on := true, force := true }) hs.2.1 ht
    rw [unturned] at hg
    refine ⟨g, ?_, hg.kept⟩
    rw [exec_dbgSetEnabled_run true true hs.1, setDebugEnabled_run, if_pos rfl, run]
    rfl

/-- The disable sequence to a debug interface that does not answer: no second delay follows (R117, R164). -/
theorem State.Quiet.disable_silent {s : State} (h : s.Quiet) (ht : s.target.Settled) (hd : s.target.debugMode = false)
    (hf : s.haltedFlag = false) : debugWrite false s = .raised (.transportError .unreachable)
      (s.after [.d 50, .w .dbg s.cfg.disable.bytes (.err .unreachable)] (s.target.wait 50)) := by
  have slept : (s.after [.d 50] (s.target.wait 50)).Quiet := h.after _ rfl
  have frame := slept.silent hd (ht.wait 50) (t := txDbgDis s.cfg) (.inl ⟨_, rfl⟩)
  rw [State.after_after] at frame
  rw [debugWrite, hf, if_neg (by simp), tMode, h.sleep, txDebug, if_neg (by simp), frame]
  rfl

/-- Settles O30: the probe decides unless the request forces; the write is answered where debug mode is on. -/
theorem disablingDebugMode : Obligations.DisablingDebugMode := by
  unfold Obligations.DisablingDebugMode
  intro s hs ht hf dis
  have unturned (q : Latches) (n : Nat) : (s.accept q).turned n = s.target := hs.quiet.turned n
  refine ⟨fun hd => ?noop, fun hd => ?unforced, fun hd => ?forced, fun hd => ?silent⟩
  case noop =>
    have query := State.Quiet.queryDebug_off (s := s.accept { op := .dbgSetEnabled, on := false, force := false }) hs.quiet hd ht
    rw [exec_dbgSetEnabled_run false false hs.1, setDebugEnabled_run, if_neg (by simp), query]
    rfl
  case unforced =>
    obtain ⟨b, g, run, hg⟩ := setDebug_off_turned (s := s.accept { op := .dbgSetEnabled, on := false, force := false })
      hs.2.1 ⟨hd, ht⟩ hf
    rw [unturned] at hg
    exact ⟨b, g, by rw [exec_dbgSetEnabled_run false false hs.1, run]; rfl, hg.kept⟩
  case forced =>
    obtain ⟨g, run, hg⟩ := disable_turned (s := s.accept { op := .dbgSetEnabled, on := false, force := true }) hs.2.1 ⟨hd, ht⟩ hf
    rw [unturned] at hg
    refine ⟨g, ?_, hg.kept⟩
    rw [exec_dbgSetEnabled_run false true hs.1, setDebugEnabled_run, if_pos rfl, run]
    rfl
  case silent =>
    have run := State.Quiet.disable_silent (s := s.accept { op := .dbgSetEnabled, on := false, force := true }) hs.quiet ht hd hf
    refine ⟨s.target.wait 50, ?_, fun x => s.target.wait_peek 50 x, hd, rfl, rfl⟩
    rw [exec_dbgSetEnabled_run false true hs.1, setDebugEnabled_run, if_pos rfl, run]
    rfl

/-- The write of debug mode off while the flag is true: no event at all (R118). -/
theorem debugWrite_halted {s : State} (hf : s.haltedFlag = true) :
    debugWrite false s = .raised (.invalidState .disableWhileHalted) s := by
  rw [debugWrite, hf]
  rfl

/-- Debug mode found on, not switched off while the flag is true (R118, R119). -/
theorem State.Quiet.setDebug_off_halted {s : State} (h : s.Quiet) (ha : s.target.Answers) (hf : s.haltedFlag = true) : ∃ b g,
    (setDebugEnabled false false).run s = .raised (.invalidState .disableWhileHalted) (s.after [rOk .dbg [] [b]] g) ∧
      g.SameCore s.target := by
  obtain ⟨b, g, query, hg⟩ := h.queryDebug_on ha
  refine ⟨b, g, ?_, hg⟩
  rw [setDebugEnabled_run, if_neg (by simp), query, Res.bind_ok, if_neg (by simp), debugWrite_halted (by exact hf)]

/-- Settles O31: the test of the flag stands after the probe and before the write (`debugWrite_halted`). -/
theorem disablingWhileHaltedFails : Obligations.DisablingWhileHaltedFails := by
  unfold Obligations.DisablingWhileHaltedFails
  intro s hl hf
  refine ⟨?force, fun hs ha => ?on, fun hs hd ht => ?off⟩
  case force =>
    rw [exec_dbgSetEnabled_run false true hl, setDebugEnabled_run, if_pos rfl, debugWrite_halted (by exact hf)]
    simp [Res.finish, State.takeError, State.respond, State.answered, State.after, State.accept, latchesOf]
  case on =>
    obtain ⟨b, g, run, hg⟩ := State.Quiet.setDebug_off_halted
      (s := s.accept { op := .dbgSetEnabled, on := false, force := false }) hs ha hf
    exact ⟨b, g, by rw [exec_dbgSetEnabled_run false false hl, run]; rfl, hg.peek, ha.1 ▸ hg.modes⟩
  case off =>
    have query := State.Quiet.queryDebug_off (s := s.accept { op := .dbgSetEnabled, on := false, force := false }) hs hd ht
    rw [exec_dbgSetEnabled_run false false hl, setDebugEnabled_run, if_neg (by simp), query]
    rfl

/-! The policy flag (R22, R120). -/

/-- The policy flag of `t` is that of `s`. -/
def KeepsPolicy (s t : State) : Prop := t.debugAutoEnable = s.debugAutoEnable

theorem transact_keepsPolicy {x : Txn} {s : State} (h : Txn.listed s.cfg x = true) : (transact x s).Ends (KeepsPolicy s) :=
  transact_ends x s h fun _ _ _ => ⟨rfl, fun _ => rfl⟩

/-- No primitive of the engine writes the policy flag. -/
theorem keepsPolicy_closed : Closed KeepsPolicy where
  refl _ := rfl
  trans h h' := Eq.trans h' h
  keep h := h.debugAutoEnable
  plain _ _ h := transact_keepsPolicy h.listed
  halt on s := by
    rw [haltCtl_run]
    exact (transact_keepsPolicy (listed_txHalt _ on)).bind (fun _ _ h => h) fun _ h => h
  disable _ _ := transact_keepsPolicy (listed_txDbgDis _)
  sleep _ _ := rfl

/-- An instruction that is no host request is one listed transaction (R76). -/
theorem exec_listedFrame {i : Instr} (h : isRequest i = false) (s : State) :
    ∃ x, exec i s = issue x s ∧ Txn.listed s.cfg x = true := by
  cases i <;> cases h <;> exact ⟨_, rfl, by simp⟩

theorem issue_keepsPolicy {x : Txn} {s t : State} (hx : Txn.listed s.cfg x = true) (h : issue x s = .next t) : KeepsPolicy s t := by
  have ends := transact_keepsPolicy hx
  unfold issue at h
  split at h
  · cases h
  · cases e : transact x s <;> rw [e] at ends h <;> cases h <;> exact ends

/-- Settles O32: the request writes the flag; no primitive does (`keepsPolicy_closed`), so no other request and no frame does. -/
theorem setAutoAloneWritesThePolicy : Obligations.SetAutoAloneWritesThePolicy := by
  unfold Obligations.SetAutoAloneWritesThePolicy
  intro s
  refine ⟨fun on hl => ?setter, fun i t hx hne => ?others⟩
  case setter =>
    have run : (programOf .dbgSetAuto).run (s.accept { op := .dbgSetAuto, on := on }) = _ := withLatches_run _ rfl
    rw [exec_request rfl, if_pos hl, run]
    simp [Res.finish, State.respond, State.answered, State.after, State.accept, State.setAuto, latchesOf]
  case others =>
    cases hi : isRequest i with
    | false =>
      obtain ⟨x, hframe, listed⟩ := exec_listedFrame hi s
      exact issue_keepsPolicy listed (hframe ▸ hx)
    | true =>
      obtain ⟨q, hq⟩ := latchesOf_request hi
      have ends := keepsPolicy_closed.request hq (fun on e => absurd e (hne on)) s
      rw [exec_request hq] at hx
      split at hx
      case isFalse => cases hx
      cases e : (programOf q.op).run (s.accept q) <;> rw [e] at ends hx <;> cases hx <;> exact ends

end Sys2Proof.Machine
end

section
/-! PROOF. The guard of a request (R121 to R124): what ends in it, and `dbg.halt` under the policy. -/

namespace Sys2Proof.Machine

/-! The guard refuses (R122, R123). -/

/-- ISP mode off: the query, then the error (R123). -/
theorem State.Quiet.ispGuard_refused {s : State} (h : s.Quiet) (hw : s.target.owedWrite = 0) (off : ¬s.target.IspOn) :
    ispGuard.run s = .raised (.preconditionFailed .isp)
      (s.after [rOk .isp [0x6f] [s.target.peek (.isp 0x6f)]] { s.target with ispPtr := 0x6f }) := by
  rw [ispGuard_run, h.queryIsp hw, Res.bind_ok, if_neg off]
  rfl

/-- Debug mode off and no policy: the probe, then the error (R122). -/
theorem State.Quiet.debugGuardEnter_refused {s : State} (h : s.Quiet) (hpol : s.debugAutoEnable = false)
    (hd : s.target.debugMode = false) (ht : s.target.Settled) : debugGuardEnter.run s =
      .raised (.preconditionFailed .debug) (State.after { s with autoTaken := false } [probeOff] s.target) := by
  have latched : s.latchAuto = { s with autoTaken := false } := by rw [State.latchAuto, hpol]
  have query := State.Quiet.queryDebug_off (s := s.latchAuto) h hd ht
  rw [latched] at query
  rw [debugGuardEnter_run, latched, if_neg (by simp), query, Res.bind_ok, if_neg (by simp)]
  rfl

/-- A range request whose gate refuses is answered with the gate's error, whatever its operands. -/
theorem exec_of_refused {i : Instr} {q : Latches} {p : Plan} (hq : latchesOf i = some q) (hp : q.plan = some p) {s : State}
    (hl : s.life = .ready) {e : Err} {auto : Bool} {ph : Phase} {evs : List Event} {g : Target}
    (refused : p.gate.run (p.move true (s.accept q)) =
      .raised e (State.after { s.accept q with autoTaken := auto, phase := ph } evs g)) :
    exec i s = .next ((s.after evs g).answered i (.error e)) := by
  rw [exec_range hq hp s hl, Plan.program_run, refused, Res.bind_raised, State.answered, hq]
  rfl

/-- The requests the debug guard protects: `dbg.halt` and the debug range requests (R121). -/
theorem debugProtected_cases {i : Instr} (h : debugProtected i = true) :
    (∃ on, i = .dbgHalt on) ∨ ∃ sp a n w, rangeAsked i = some (sp, a, n, w) ∧ sp ≠ .isp := by
  cases i
  case dbgHalt on => exact .inl ⟨on, rfl⟩
  case xdataRead | xdataWrite | xdataDump => exact .inr ⟨.xdata, _, _, _, rfl, nofun⟩
  case eepromRead | eepromWrite | eepromDump => exact .inr ⟨.eeprom, _, _, _, rfl, nofun⟩
  all_goals cases h

theorem exec_dbgHalt_run (on : Bool) {s : State} (hl : s.life = .ready) :
    exec (.dbgHalt on) s = ((haltMcu on).run (s.accept { op := .dbgHalt, on := on })).finish := by
  rw [exec_request rfl, if_pos hl]
  exact congrArg Res.finish (withLatches_run (fun q => haltMcu q.on) (State.accept_latches s _))

/-- Settles O36: the gate runs before the checks, and its error ends the request. -/
theorem theGateComesFirst : Obligations.TheGateComesFirst := by
  unfold Obligations.TheGateComesFirst
  intro i s hl hs
  refine ⟨fun a n w asked off hw => ?isp, fun guarded hpol hd ht => ?debug⟩
  case isp =>
    obtain ⟨q, hq, hp, -⟩ := plan_of_asked asked
    exact exec_of_refused hq hp hl (State.Quiet.ispGuard_refused (s := Plan.move _ true (s.accept q)) hs hw off)
  case debug =>
    rcases debugProtected_cases guarded with ⟨on, rfl⟩ | ⟨sp, a, n, w, asked, hsp⟩
    · have refused := State.Quiet.debugGuardEnter_refused (s := (s.accept { op := .dbgHalt, on := on }).place .modeCheck) hs hpol hd ht
      rw [exec_dbgHalt_run on hl, haltMcu_run, refused]
      rfl
    · obtain ⟨q, hq, hp, -⟩ := plan_of_asked asked
      exact exec_of_refused hq hp hl ((Plan.gate_debug hsp _).trans
        (State.Quiet.debugGuardEnter_refused (s := Plan.move _ true (s.accept q)) hs hpol hd ht))

/-! `dbg.halt` (R131). -/

theorem HaltDistinct.ne_halt {p : Params} (h : HaltDistinct p) (on : Bool) : p.disable.bytes ≠ [0x80, if on then 0x01 else 0x00] := by
  cases on with
  | true => exact h.1
  | false => exact h.2

/-- `dbg.halt` up to its guard exit: debug mode on, the MCU as asked, the flag saying so. -/
theorem haltMcu_exits (on : Bool) {s : State} (ho : s.oracle = []) (hm : s.mcu = []) (ht : s.target.Settled)
    (hd : s.target.debugMode = true ∨ s.debugAutoEnable = true) (hc : HaltDistinct s.cfg) : ∃ ph b g,
    (haltMcu on).run s = ((debugGuardExit.run (State.after
        { s with autoTaken := s.debugAutoEnable, haltedFlag := on, phase := ph }
        (enableEvents s.cfg s.target.debugMode b ++ [wOk .dbg [0x80, if on then 0x01 else 0x00], .d 100]) g)).bind
      fun _ s => .ok .void s) ∧
    g.SameCore ((s.target.inDebug true).inHalt on) := by
  obtain ⟨ph, b, g, entered, hg⟩ := debugGuardEnter_turned (s := s.place .modeCheck) ho ht hd
  have quiet : (s.place .modeCheck).Quiet := ⟨ho, .inl hm⟩
  rw [quiet.turned] at hg
  generalize hu : State.after _ _ g = u at entered
  have target : u.target = g := by rw [← hu]; rfl
  have answers : u.target.Answers := target ▸ ⟨hg.debugMode, hg.settled ht⟩
  have mcu : u.mcu = [] := by rw [← hu]; simp [State.place, hm]
  have halted := State.Quiet.haltCtl (s := u.place (if on then .haltOpen else .haltClose)) ⟨by rw [← hu]; exact ho, .inl mcu⟩ answers
    on (by rw [← hu]; exact hc.ne_halt on) fun _ => mcu
  refine ⟨if s.debugAutoEnable then .autoDisable else .respond, b, { g with mcuHalted := on, owedRead := g.owedRead - 100 }, ?_, ?_⟩
  · rw [haltMcu_run, entered, Res.bind_ok, halted, Res.bind_ok, ← hu]
    simp [State.after, State.place, hm]
  · exact .trans (b := g.inHalt on) (by constructor <;> rfl) (hg.inHalt on)

/-- Settles O35: the guard exit switches debug mode off after `dbg.halt false`, and meets the flag after `dbg.halt true`. -/
theorem haltMcuUnderThePolicy : Obligations.HaltMcuUnderThePolicy := by
  unfold Obligations.HaltMcuUnderThePolicy
  intro s hs ht hpol hc
  obtain ⟨hl, ho, hm⟩ := hs
  have exits (on : Bool) := haltMcu_exits on (s := s.accept { op := .dbgHalt, on := on }) ho hm ht (.inr hpol) hc
  refine ⟨?resume, ?halt⟩
  case resume =>
    obtain ⟨ph, b, g, run, hg⟩ := exits false
    generalize hu : State.after _ _ g = u at run
    have target : u.target = g := by rw [← hu]; rfl
    have quiet : u.Quiet := ⟨by rw [← hu]; exact ho, .inl (by rw [← hu]; simp [hm])⟩
    obtain ⟨b', g', off, hg'⟩ := setDebug_off_turned quiet.1 (target ▸ ⟨hg.debugMode, hg.settled ht⟩) (by rw [← hu]; rfl)
    rw [quiet.turned, target] at hg'
    refine ⟨b, b', g', ?_, ?_⟩
    · rw [exec_dbgHalt_run false hl, run, debugGuardExit_run, if_pos (by rw [← hu]; exact hpol), off, ← hu, State.after_after]
      rfl
    · exact (hg'.trans (hg.inDebug false)).kept
  case halt =>
    obtain ⟨ph, b, g, run, hg⟩ := exits true
    generalize hu : State.after _ _ g = u at run
    have target : u.target = g := by rw [← hu]; rfl
    have quiet : u.Quiet := ⟨by rw [← hu]; exact ho, .inl (by rw [← hu]; simp [hm])⟩
    obtain ⟨b', g', refused, hg'⟩ := quiet.setDebug_off_halted (target ▸ ⟨hg.debugMode, hg.settled ht⟩) (by rw [← hu]; rfl)
    rw [target] at hg'
    refine ⟨b, b', g', ?_, ?_⟩
    · rw [exec_dbgHalt_run true hl, run, debugGuardExit_run, if_pos (by rw [← hu]; exact hpol), refused, ← hu, State.after_after,
        List.append_assoc]
      rfl
    · exact Target.SameCore.kept (t := s.target.inHalt true) (on := true) (hg'.trans hg)

end Sys2Proof.Machine
end

section
/-! PROOF. A debug range request under the policy (R122, R124): the gate, the transfers and the guard exit. -/

namespace Sys2Proof.Machine

/-! What the transfers have done, seen from targets that agree. -/

@[simp] theorem Target.inHalt_peek (t : Target) (on : Bool) (x : Loc) : (t.inHalt on).peek x = t.peek x := by cases x <;> rfl

@[simp] theorem Target.inDebug_peek (t : Target) (on : Bool) (x : Loc) : (t.inDebug on).peek x = t.peek x := by cases x <;> rfl

/-- The bytes read depend on the bytes of the target alone. -/
theorem Plan.out_congr {p : Plan} {g t : Target} (h : g.SameBytes t) : p.out g = p.out t := by
  funext j
  simp [Plan.out, h (p.loc j)]

namespace Plan.Reached

variable {p : Plan} {t g : Target} {j : Nat}

/-- The data port of the debug interface does not matter. -/
theorem congr (h : p.Reached t j g) {t' g' : Target} (ht : t.SameCore t') (hg : g'.SameCore g) : p.Reached t' j g' where
  answers := hg.answers h.answers
  mcuHalted := hg.mcuHalted.trans (h.mcuHalted.trans ht.mcuHalted)
  ispPtr := hg.ispPtr.trans (h.ispPtr.trans ht.ispPtr)
  wf hw := hg.wf (h.wf hw)
  bytes := by
    have bytes := h.bytes
    split
    · rw [if_pos ‹_›] at bytes
      exact ⟨fun k hk => (hg.peek _).trans (bytes.1 k hk), fun x hx => (hg.peek x).trans ((bytes.2 x hx).trans (ht.peek x))⟩
    · rw [if_neg ‹_›] at bytes
      exact fun x => (hg.peek x).trans ((bytes x).trans (ht.peek x))

/-- The MCU halted or set running at both ends. -/
theorem inHalt (h : p.Reached t j g) (on : Bool) : p.Reached (t.inHalt on) j (g.inHalt on) where
  answers := h.answers
  mcuHalted := rfl
  ispPtr := h.ispPtr
  wf := h.wf
  bytes := by
    have bytes := h.bytes
    split
    · rw [if_pos ‹_›] at bytes
      exact ⟨fun k hk => by rw [Target.inHalt_peek, bytes.1 k hk],
        fun x hx => by rw [Target.inHalt_peek, Target.inHalt_peek, bytes.2 x hx]⟩
    · rw [if_neg ‹_›] at bytes
      exact fun x => by rw [Target.inHalt_peek, Target.inHalt_peek, bytes x]

/-- One more transfer where the MCU cannot write, with the events and the byte of the target the transfers started from. -/
theorem transfer (hp : p.Debug) {s : State} (hs : s.Quiet) (h : p.Reached t j s.target) (hh : p.halt = true → t.mcuHalted = true)
    (hj : j < p.count) : ∃ g,
    (p.transfer j).run s = .ok () ({ s with result := s.result ++ p.out t j }.after (p.moves t j) g) ∧ p.Reached t (j + 1) g := by
  obtain ⟨g, run, hg⟩ := Plan.transfer_quiet hp.space hs h.answers (fun e => h.mcuHalted.trans (hh e)) j
  rw [(h.moves_eq j).1, (h.moves_eq j).2] at run
  exact ⟨g, run, h.succ hp hj hg⟩

end Plan.Reached

/-- The halt operand asks a debug request for the bracket (R127). -/
theorem Plan.bracket_eq_halt {p : Plan} (hsp : p.space ≠ .isp) : p.bracket = p.halt := by
  simp [Plan.bracket, hsp]

/-- The checks, the bracket if it is asked for, and the transfers, debug mode on: the MCU runs after a bracket and is as before without
one. -/
theorem Plan.core_debug {p : Plan} (hp : p.Debug) (hck : ∀ s, p.check.run s = .ok () s) {s : State} (h : s.Quiet)
    (hop : s.bracketOpen = false) (hpe : s.pendingError = none) (ha : s.target.Answers) (hwf : s.target.wf)
    (hb : p.bracket = true → s.mcu = [] ∧ HaltDistinct s.cfg) : ∃ ph g,
    p.core s = .ok () (State.after
      { s with haltedFlag := s.haltedFlag && !p.bracket, phase := ph,
               result := s.result ++ (List.range p.count).flatMap (p.out s.target) }
      (inBracket p.bracket ((List.range p.count).flatMap (p.moves s.target))) g) ∧
    p.Reached (s.target.inHalt (s.target.mcuHalted && !p.bracket)) p.count g := by
  have halt := Plan.bracket_eq_halt hp.space
  cases bracket : p.bracket with
  | false =>
    have running : ¬p.halt = true := by simp [← halt, bracket]
    obtain ⟨ph, g, run, hg⟩ := Plan.core_plain hck bracket h hop (p.Reached s.target) (fun _ _ r => r.mcuHalted) (.zero ha fun _ => hwf)
      (p.out s.target) (p.moves s.target) fun j _ hj quiet _ r => r.transfer hp quiet (absurd · running) hj
    refine ⟨ph, g, ?_, ?_⟩
    · rw [run, Bool.not_false, Bool.and_true]
      rfl
    · rw [Bool.not_false, Bool.and_true]
      exact hg
  | true =>
    obtain ⟨hm, hc⟩ := hb bracket
    have start : p.Reached (s.target.inHalt true) 0 (s.target.inHalt true) := .zero ha fun _ => hwf
    have same : (s.target.inHalt true).SameBytes s.target := fun x => Target.inHalt_peek ..
    obtain ⟨ph, m, g, run, hmoved, hg⟩ := Plan.core_bracket hck bracket h.1 hm hpe ha hc (p.Reached (s.target.inHalt true))
      (fun _ _ r => ⟨r.mcuHalted, r.answers⟩) (fun _ hg => start.congr (.refl _) hg) (p.out s.target) (p.moves s.target)
      fun j _ hj quiet _ r => by
        rw [← Plan.out_congr same, ← Plan.moves_congr same]
        exact r.transfer hp quiet (fun _ => rfl) hj
    refine ⟨ph, g, ?_, ?_⟩
    · rw [run, Bool.not_true, Bool.and_false, ← hop]
    · rw [Bool.not_true, Bool.and_false]
      exact (hmoved.inHalt false).congr (.refl _) hg

/-! A request in the statements' words. -/

/-- The result of a request is that of its plan. -/
theorem resultOf_of_plan {i : Instr} {q : Latches} {p : Plan} (hq : latchesOf i = some q) (hp : q.plan = some p)
    (hsp : p.space ≠ .isp) (t : Target) : resultOf t i = p.answer t := by
  have answer : p.answer t = if p.write then .void else .bytes ((List.range p.count).map fun j => t.peek (p.loc j)) := by
    unfold Plan.answer
    cases hw : p.write with
    | false => rw [Plan.out_read hw]
    | true => rfl
  rw [answer]
  cases i <;> cases hq <;> cases hp <;> try exact absurd rfl hsp
  case xdataDump a n e h => rw [resultOf, ← dumpLength_eq]; rfl
  case eepromDump a n e t h => rw [resultOf, ← dumpLength_eq]; rfl
  all_goals rfl

/-- What the transfers of a request leave stored. -/
theorem Plan.Serves.holdsAfter {p : Plan} {i : Instr} {q : Latches} (h : p.Serves i q) {t t' g g' : Target}
    (hr : p.Reached t' p.count g) (ht : t'.SameBytes t) (hg : g'.SameBytes g) : g'.HoldsAfter t i p.count := by
  have bytes := hr.bytes
  simp only [Target.HoldsAfter, h.writes]
  cases hw : p.write with
  | false =>
    rw [hw, if_neg (by simp)] at bytes
    exact fun x => (hg x).trans ((bytes x).trans (ht x))
  | true =>
    rw [hw, if_pos rfl] at bytes
    exact ⟨fun k hk => (hg _).trans (bytes.1 k hk), fun x hx => (hg x).trans ((bytes.2 x hx).trans (ht x))⟩

/-- A debug range request under the policy up to its guard exit: the state `u` it exits from. -/
theorem Plan.Serves.exits {p : Plan} {i : Instr} {q : Latches} (h : p.Serves i q) {s : State} (hs : s.Quiet)
    (hop : s.bracketOpen = false) (hpe : s.pendingError = none) (ht : s.target.Settled) (hwf : s.target.wf)
    (hpol : s.debugAutoEnable = true) (hb : bracketed i = true → s.mcu = [] ∧ HaltDistinct s.cfg) : ∃ ph b g u,
    p.program.run s = (((setDebugEnabled false false).run u).bind fun _ s => .ok (if p.write then .void else .bytes s.result) s) ∧
    u = State.after { s with autoTaken := true, haltedFlag := s.haltedFlag && !bracketed i, phase := ph,
                             result := s.result ++ (List.range p.count).flatMap (p.out s.target) }
          (enableEvents s.cfg s.target.debugMode b ++ inBracket (bracketed i) (transferEvents s.target i)) g ∧
    u.Quiet ∧ p.Reached ((s.target.inDebug true).inHalt (s.target.mcuHalted && !bracketed i)) p.count g := by
  obtain ⟨ph₁, b, t, gate, core⟩ := Plan.gate_passed (p := p) h.inRange.space hs ht (.inr hpol)
  have same : t.SameBytes s.target := fun x => (core.peek x).trans (Target.inDebug_peek ..)
  generalize hv : State.after _ _ t = v at gate
  have target : v.target = t := by rw [← hv]; rfl
  have quiet : v.Quiet := by rw [← hv]; exact State.Quiet.after (s := s) hs _ core.mcuHalted
  obtain ⟨ph, g, run, hg⟩ := Plan.core_debug h.inRange h.check quiet (by rw [← hv]; exact hop) (by rw [← hv]; exact hpe)
    (target ▸ ⟨core.debugMode, core.settled ht⟩) (target ▸ core.wf hwf) (by
      rw [h.bracket, ← hv]
      exact fun e => ⟨by simp [(hb e).1], (hb e).2⟩)
  have halted : t.mcuHalted = s.target.mcuHalted := core.mcuHalted
  rw [target, h.bracket, Plan.moves_congr same, Plan.out_congr same,
    ← transferEvents_of_plan h.latches h.plan h.inRange.space] at run
  rw [target, h.bracket, halted] at hg
  generalize hu : State.after _ _ g = u at run
  refine ⟨ph, b, g, u, ?_, ?_, ?_, hg.congr (core.inHalt _) (.refl _)⟩
  · rw [Plan.program_eq, gate, Res.bind_ok, run, Res.bind_ok, Plan.exit_debug_run h.inRange.space,
      if_pos (by rw [← hu, ← hv]; exact hpol)]
  · rw [← hu, ← hv, ← State.after_after, hpol]
    rfl
  · cases e : bracketed i with
    | true => exact ⟨by rw [← hu]; exact quiet.1, .inl (by rw [← hu, ← hv]; simp [(hb e).1])⟩
    | false =>
      rw [← hu]
      refine State.Quiet.after (s := v) quiet _ ?_
      rw [hg.mcuHalted, e, target, halted, Bool.not_false, Bool.and_true]
      rfl

/-- Settles O45: the flag is false at the guard exit, which finds debug mode on and switches it off. -/
theorem rangeRequestsUnderThePolicy : Obligations.RangeRequestsUnderThePolicy := by
  unfold Obligations.RangeRequestsUnderThePolicy
  intro i s sp a n w asked hsp hs hwf ht hpol hc hf hw
  obtain ⟨q, p, hp, -, -, -, rfl⟩ := plan_serves asked hsp hw
  have mcu (hb : bracketed i = true) : s.mcu = [] := hs.2.2.resolve_right fun e => by simp [hb] at e
  obtain ⟨ph, b, g, u, run, hu, quiet, hg⟩ := hp.exits (s := s.accept q) hs.quiet rfl rfl ht hwf hpol fun hb => ⟨mcu hb, hc hb⟩
  have unhalted : (s.haltedFlag && !bracketed i) = false := by
    cases hb : bracketed i with
    | true => simp
    | false => simp [hf hb]
  have target : u.target = g := by rw [hu]; rfl
  obtain ⟨b', g', off, hg'⟩ := setDebug_off_turned quiet.1 (target ▸ hg.answers) (by rw [hu]; exact unhalted)
  rw [quiet.turned, target] at hg'
  obtain ⟨bytes, mode, halted, ptr⟩ := hg'.kept
  refine ⟨b, b', g', ?_, hp.holdsAfter hg (fun x => by simp) bytes, mode, halted.trans hg.mcuHalted, ptr.trans hg.ispPtr⟩
  rw [hp.exec hs.1, run, off, Res.bind_ok, hu, State.after_after, State.accept_haltedFlag, unhalted,
    resultOf_of_plan hp.latches hp.plan hp.inRange.space, State.answered, hp.latches]
  rfl

/-- Settles O46: the guard exit meets the flag, after the transfers. -/
theorem thePolicyFailsWhileHalted : Obligations.ThePolicyFailsWhileHalted := by
  unfold Obligations.ThePolicyFailsWhileHalted
  intro i s sp a n w asked hsp hb hs hwf ht hpol hf hw
  obtain ⟨q, p, hp, -, -, -, rfl⟩ := plan_serves asked hsp hw
  obtain ⟨ph, b, g, u, run, hu, quiet, hg⟩ := hp.exits (s := s.accept q) hs.quiet rfl rfl ht hwf hpol fun e => by simp [hb] at e
  have flag : (s.haltedFlag && !bracketed i) = true := by simp [hf, hb]
  have target : u.target = g := by rw [hu]; rfl
  obtain ⟨b', g', refused, hg'⟩ := quiet.setDebug_off_halted (target ▸ hg.answers) (by rw [hu]; exact flag)
  rw [target] at hg'
  have halted : g'.mcuHalted = s.target.mcuHalted := by
    rw [hg'.mcuHalted, hg.mcuHalted, hb]
    simp [Target.inHalt]
  refine ⟨b, b', g', ?_, hp.holdsAfter hg (fun x => by simp) hg'.peek, hg'.debugMode.trans hg.answers.1, halted,
    hg'.ispPtr.trans hg.ispPtr⟩
  rw [hp.exec hs.1, run, refused, Res.bind_raised, hu, State.after_after, State.accept_haltedFlag, flag, hb,
    ← hf, State.answered, hp.latches]
  rfl

end Sys2Proof.Machine
end

section
/-! PROOF. Under the policy a request that succeeds has switched debug mode off, whatever the MCU writes (R124): its DBG frames all
wait for their delays, so the probe of the guard exit tells the mode. -/

namespace Sys2Proof.Machine

/-! What the target owes (R71). -/

/-- The next DBG frame has to wait for at most `ms`; where `halt` says so, no memory command is answered by a target whose MCU runs. -/
structure Target.Paid (halt : Bool) (ms : Nat) (t : Target) : Prop where
  owedCmd : t.owedCmd ≤ ms
  owedMem : t.owedMem ≤ ms
  halted : halt = true → t.mcuHalted = true ∨ t.debugMode = false

theorem Target.Paid.inTime {halt : Bool} {t : Target} (h : t.Paid halt 0) : t.InTime :=
  ⟨Nat.le_zero.1 h.owedCmd, Nat.le_zero.1 h.owedMem⟩

/-- Any target owes no more than one it agrees with. -/
theorem Target.Paid.sameCore {halt : Bool} {ms : Nat} {g t : Target} (h : t.Paid halt ms) (hg : g.SameCore t) : g.Paid halt ms where
  owedCmd := hg.owedCmd ▸ h.owedCmd
  owedMem := hg.owedMem ▸ h.owedMem
  halted := by rw [hg.mcuHalted, hg.debugMode]; exact h.halted

theorem Target.Paid.turns {halt : Bool} {ms : Nat} {t : Target} (h : t.Paid halt ms) (l : List (List (Addr16 × Byte))) :
    (t.turns l).Paid halt ms :=
  ⟨by simpa using h.owedCmd, by simpa using h.owedMem, by simpa using h.halted⟩

theorem Target.Paid.unsettle {halt : Bool} {ms : Nat} {t : Target} (h : t.Paid halt ms) : t.unsettle.Paid halt ms :=
  ⟨by simpa using h.owedCmd, by simpa using h.owedMem, by simpa using h.halted⟩

theorem Target.Paid.wait {halt : Bool} {a : Nat} {t : Target} (h : t.Paid halt a) (ms : Nat) : (t.wait ms).Paid halt (a - ms) :=
  ⟨Nat.sub_le_sub_right h.owedCmd ms, Nat.sub_le_sub_right h.owedMem ms, h.halted⟩

/-- Nothing is asked of the MCU outside the bracket. -/
theorem Target.Paid.free {halt : Bool} {ms : Nat} {t : Target} (h : t.Paid halt ms) : t.Paid false ms :=
  ⟨h.owedCmd, h.owedMem, nofun⟩

/-! The DBG frames to a target in time (R68 to R72). -/

section frames
variable {c : Params} {halt : Bool} {t g : Target}

/-- A probe tells the mode and keeps it. -/
theorem Target.Paid.probe {o : Answer} (h : t.Paid halt 0) (e : t.reply c txDbgProbe = some (o, g)) :
    (t.debugMode = true ∧ (∃ b, o = .ok [b]) ∧ g.SameCore t) ∨ (t.debugMode = false ∧ o = .err .unreachable ∧ g = t) := by
  have inTime := h.inTime
  cases mode : t.debugMode with
  | false =>
    have silent : t.reply c txDbgProbe = some (.err .unreachable, t) := by
      simp [txDbgProbe, Target.reply, Target.dbgRead, inTime, mode]
    rw [silent] at e
    cases e
    exact .inr ⟨rfl, rfl, rfl⟩
  | true =>
    have data : t.reply c txDbgProbe = some (t.dbgData 1) := by
      simp [txDbgProbe, Target.reply, Target.dbgRead, inTime, mode, dbgProbeN, dbgProbeWs]
    obtain ⟨b, byte, core⟩ := t.dbgData_cases
    rw [data, Option.some.injEq] at e
    rw [e] at byte core
    exact .inl ⟨rfl, ⟨b, byte⟩, core⟩

/-- A write to the debug interface that is answered: debug mode is on, and it is the disable sequence or a command. -/
theorem Target.Paid.write {bs rs : List Byte} (h : t.Paid halt 0) (e : t.reply c (.w .dbg bs) = some (.ok rs, g)) :
    t.debugMode = true ∧ ((bs = c.disable.bytes ∧ g = { t with debugMode := false, owedCmd := tMode }) ∨
      (bs ≠ c.disable.bytes ∧ t.dbgCommand bs = some g)) := by
  simp only [Target.reply, Target.dbgFrame, not_not.2 h.inTime, if_false] at e
  split at e
  · cases e
  · next answering =>
    refine ⟨by simpa using answering, ?_⟩
    split at e
    · cases e
      exact .inl ⟨‹_›, rfl⟩
    · obtain ⟨g', command, e⟩ := Option.map_eq_some_iff.1 e
      cases e
      exact .inr ⟨‹_›, command⟩

theorem Target.Paid.disable {rs : List Byte} (h : t.Paid halt 0) (e : t.reply c (txDbgDis c) = some (.ok rs, g)) :
    g.debugMode = false := by
  obtain ⟨-, ⟨-, rfl⟩ | ⟨other, -⟩⟩ := h.write e
  · rfl
  · exact absurd rfl other

theorem Target.Paid.enable {rs : List Byte} (h : t.Paid halt 0) (e : t.reply c (txDbgEn c) = some (.ok rs, g)) :
    g.Paid false 50 := by
  have ddc : t.ddcFrame c c.enable.bytes = { t with debugMode := true, owedCmd := max t.owedCmd tMode } := if_pos rfl
  obtain rfl : t.ddcFrame c c.enable.bytes = g := (Prod.mk.inj (Option.some.inj e)).2
  obtain ⟨cmd, mem⟩ := h.inTime
  rw [ddc]
  exact ⟨by simp [cmd, tMode], by simp [mem], nofun⟩

/-- A halt command that is answered halts or runs the MCU, or is the disable sequence (log 30). -/
theorem Target.Paid.haltFrame {on : Bool} {rs : List Byte} (h : t.Paid halt 0) (e : t.reply c (txHalt on) = some (.ok rs, g)) :
    g.Paid on 100 := by
  obtain ⟨cmd, mem⟩ := h.inTime
  obtain ⟨-, ⟨-, rfl⟩ | ⟨-, command⟩⟩ := h.write e
  · exact ⟨by simp [tMode], by simp [mem], fun _ => .inr rfl⟩
  · have halts : t.dbgCommand [cmdHalt, if on then haltVal else runVal] = some { t with mcuHalted := on, owedCmd := tHalt } := by
      cases on <;> rfl
    rw [halts] at command
    cases command
    exact ⟨by simp [tHalt], by simp [mem], .inl⟩

/-- The delay a memory command of a plan may owe (R71). -/
def Plan.delay (p : Plan) : Nat := (if p.space = .eeprom then 10 else 0) + if p.halt then 0 else 10

/-- The command of a debug transfer as the device takes it (R70, R72): longer than the disable sequence. -/
theorem Plan.command_bytes {p : Plan} (hsp : p.space ≠ .isp) (j : Nat) : ∃ bs, p.command j = .w .dbg bs ∧ bs.length ≠ 2 ∧
    ∀ t : Target, t.dbgCommand bs = some (p.commanded t j) := by
  unfold Plan.command Plan.commanded Plan.loc Plan.settleTime
  cases hs : p.space with
  | isp => exact absurd hs hsp
  | xdata => cases hw : p.write <;> exact ⟨_, rfl, by simp, fun t => by simp [Target.dbgCommand]⟩
  | eeprom => cases hw : p.write <;> exact ⟨_, rfl, by simp, fun t => by simp [Target.dbgCommand, cmdEeRd, cmdEeWr]⟩

/-- A memory command owes its settle time, which the halted MCU shortens (R71). -/
theorem Plan.settleTime_le {p : Plan} (hh : p.halt = true → t.mcuHalted = true) : p.settleTime t ≤ p.delay := by
  have short : (if t.mcuHalted then 0 else 10) ≤ if p.halt then 0 else 10 := by
    cases h : p.halt with
    | true => simp [hh h]
    | false => simp; split <;> omega
  unfold Plan.settleTime Plan.delay Target.eepromSettle Target.xdataSettle
  split <;> simpa [tEeprom, tSettle] using short

/-- A memory command that is answered owes at most the delay of its transfer. -/
theorem Target.Paid.command {p : Plan} (hsp : p.space ≠ .isp) {j : Nat} {rs : List Byte} (h : t.Paid p.halt 0)
    (e : t.reply c (p.command j) = some (.ok rs, g)) : g.Paid p.halt p.delay := by
  obtain ⟨bs, frame, long, command⟩ := Plan.command_bytes hsp j
  rw [frame] at e
  obtain ⟨on, ⟨rfl, -⟩ | ⟨-, done⟩⟩ := h.write e
  · exact absurd rfl long
  · obtain rfl : p.commanded t j = g := Option.some.inj ((command t).symm.trans done)
    have halted (hh : p.halt = true) : t.mcuHalted = true := (h.halted hh).resolve_right (by simp [on])
    have owed := Plan.settleTime_le halted
    obtain ⟨cmd, -⟩ := h.inTime
    unfold Plan.commanded
    split
    · exact ⟨by simp [cmd], by simpa using owed, fun hh => .inl (by simpa using halted hh)⟩
    · exact ⟨by simp [cmd], by simpa using owed, fun hh => .inl (by simpa using halted hh)⟩

/-- A data read that is answered changes the data port at most. -/
theorem Target.Paid.data {rs : List Byte} (h : t.Paid halt 0) (e : t.reply c txDbgData = some (.ok rs, g)) : g.Paid halt 0 := by
  rcases h.probe e with ⟨-, -, core⟩ | ⟨-, -, rfl⟩
  · exact h.sameCore core
  · exact h

end frames

/-! Programs that complete. -/

/-- From a state with `P`, the program ends, if it completes, with a value and a state that meet `Q`. -/
def Prog.Leads {α : Type} (P : State → Prop) (p : Prog α) (Q : α → State → Prop) : Prop :=
  ∀ s a t, P s → p.run s = .ok a t → Q a t

/-- A sequence completes where both its parts do. -/
theorem Res.bind_eq_ok {α β : Type} {r : Res α} {k : α → State → Res β} {b : β} {t : State} (h : r.bind k = .ok b t) :
    ∃ a u, r = .ok a u ∧ k a u = .ok b t := by
  cases r with
  | ok a u => exact ⟨a, u, rfl, h⟩
  | raised e u => cases h
  | hung u => cases h
  | fault f => cases h
  | refused q => cases h

namespace Prog.Leads

variable {α β : Type} {P P' : State → Prop} {Q : α → State → Prop} {R : β → State → Prop}

theorem ret {a : α} (h : ∀ s, P s → Q a s) : (Prog.ret a).Leads P Q := fun s b t hs e => by cases e; exact h s hs

theorem throw (e : Err) : (Prog.throw e : Prog α).Leads P Q := fun _ _ _ _ h => by cases h

theorem bind {p : Prog α} {k : α → Prog β} (hp : p.Leads P Q) (hk : ∀ a, (k a).Leads (Q a) R) : (p.bind k).Leads P R := by
  intro s b t hs run
  rw [Prog.run_bind] at run
  obtain ⟨a, u, first, second⟩ := Res.bind_eq_ok run
  exact hk a u b t (hp s a u hs first) second

theorem ite {q : Prop} [Decidable q] {p p' : Prog α} (h : q → p.Leads P Q) (h' : ¬q → p'.Leads P Q) :
    (if q then p else p').Leads P Q := by
  split
  · exact h ‹_›
  · exact h' ‹_›

theorem get {r : State → Prog α} (h : ∀ s, P s → (r s).Leads P Q) : (Prog.get r).Leads P Q := fun s a t hs run => h s hs s a t hs run

theorem assign {f : State → State} {Q : State → Prop} (h : ∀ s, P s → Q (f s)) : (Machine.assign f).Leads P fun _ => Q :=
  fun s a t hs run => by cases run; exact h s hs

theorem weaken {p : Prog α} (h : p.Leads P Q) (hP : ∀ s, P' s → P s) : p.Leads P' Q := fun s a t hs run => h s a t (hP s hs) run

end Prog.Leads

/-! The primitives beside the reference device. -/

/-- The reference device answers, the policy is taken, and the target meets `Q`. -/
structure State.Under (c : Params) (Q : Target → Prop) (s : State) : Prop where
  oracle : s.oracle = []
  cfg : s.cfg = c
  autoTaken : s.autoTaken = true
  target : Q s.target

/-- A request under the policy starts beside the reference device, in time. -/
structure State.Starts (c : Params) (s : State) : Prop where
  oracle : s.oracle = []
  cfg : s.cfg = c
  debugAutoEnable : s.debugAutoEnable = true
  target : s.target.Paid false 0

/-- A transaction with the reference device: it is refused, or its outcome is the device's reply after the MCU's turn. -/
theorem transact_reply {x : Txn} {s : State} (ho : s.oracle = []) : transact x s = .refused .unlistedFrame ∨
    ∃ o g, (s.turned 1).unsettle.reply s.cfg x = some (o, g) ∧
      transact x s = s.mcuActs.dropFate.conclude x (outcomeOf x o) g := by
  have answer : s.mcuActs.dropFate.target.answer s.mcuActs.dropFate.cfg x = (s.turned 1).unsettle.reply s.cfg x := by
    rw [State.turned_one]
    rfl
  rw [transact_eq, ho, List.headD_nil]
  cases e : (s.turned 1).unsettle.reply s.cfg x with
  | none => exact .inl (by rw [transactAs, answer, e])
  | some og => exact .inr ⟨og.1, og.2, rfl, by rw [transactAs, answer, e]⟩

theorem outcomeOf_eq_ok {x : Txn} {o : Answer} {rs : List Byte} (h : outcomeOf x o = .ok rs) : ∃ rs', o = .ok rs' := by
  cases o with
  | ok rs' => exact ⟨rs', rfl⟩
  | err k => cases x <;> cases h
  | hang => cases x <;> cases h

section primitives
variable {c : Params} {halt : Bool} {s t : State}

/-- A transaction that succeeds, from a target that owes nothing. -/
theorem State.Under.transact {x : Txn} {bs : List Byte} {Q : Target → Prop} (h : s.Under c (·.Paid halt 0))
    (hx : ∀ (t g : Target) (rs : List Byte), t.Paid halt 0 → t.reply c x = some (.ok rs, g) → Q g)
    (run : Machine.transact x s = .ok bs t) : t.Under c Q := by
  rcases transact_reply (x := x) h.oracle with refused | ⟨o, g, reply, concluded⟩
  · rw [refused] at run
    cases run
  · rw [concluded] at run
    rcases State.conclude_cases s.mcuActs.dropFate x (outcomeOf x o) g with ⟨rs', ok, e⟩ | ⟨k, -, e⟩ | ⟨-, e⟩ <;> rw [e] at run <;>
      cases run
    obtain ⟨rs', rfl⟩ := outcomeOf_eq_ok ok
    refine ⟨by simp [State.record, State.dropFate, State.mcuActs, h.oracle], h.cfg, h.autoTaken, ?_⟩
    exact hx _ _ _ (h.target.turns _).unsettle (h.cfg ▸ reply)

theorem State.Under.sleep {a : Nat} (h : s.Under c (·.Paid halt a)) (ms : Nat) : (Machine.sleep ms s).Under c (·.Paid halt (a - ms)) :=
  ⟨h.oracle, h.cfg, h.autoTaken, by rw [sleep_turned]; exact (h.target.turns _).wait ms⟩

end primitives

namespace Prog.Leads

variable {c : Params} {halt : Bool}

theorem bus {x : Txn} {Q : Target → Prop}
    (hx : ∀ (t g : Target) (rs : List Byte), t.Paid halt 0 → t.reply c x = some (.ok rs, g) → Q g) :
    (Machine.bus x).Leads (State.Under c (·.Paid halt 0)) fun _ => State.Under c Q :=
  fun s _ _ hs run => hs.transact hx ((bus_run x s).symm.trans run)

theorem delay (a ms : Nat) : (Machine.delay ms).Leads (State.Under c (·.Paid halt a)) fun _ => State.Under c (·.Paid halt (a - ms)) :=
  fun s _ t hs run => by cases run; exact hs.sleep ms

/-! The mode gate (41_mode_gate.md). -/

/-- The probe's answer is the mode. -/
theorem queryDebugEnabled : Machine.queryDebugEnabled.Leads (State.Under c (·.Paid halt 0))
    fun b => State.Under c fun t => t.Paid halt 0 ∧ t.debugMode = b := by
  intro s b u hs run
  rw [queryDebugEnabled_run] at run
  rcases transact_reply (x := txDbgProbe) hs.oracle with refused | ⟨o, g, reply, concluded⟩
  · rw [refused] at run
    cases run
  · have paid := (hs.target.turns (s.mcu.take 1)).unsettle
    have oracle : (s.mcuActs.dropFate.record (eventOf txDbgProbe o) g).oracle = [] := by
      simp [State.record, State.dropFate, State.mcuActs, hs.oracle]
    rcases paid.probe reply with ⟨on, ⟨b', rfl⟩, core⟩ | ⟨off, rfl, rfl⟩ <;> rw [concluded] at run <;> cases run
    · exact ⟨oracle, hs.cfg, hs.autoTaken, paid.sameCore core, core.debugMode.trans on⟩
    · exact ⟨oracle, hs.cfg, hs.autoTaken, paid, off⟩

/-- A mode set without `force`: the probe finds it so, or the write is done. -/
theorem setDebugEnabled {on : Bool} {Q : State → Prop} (found : ∀ s, s.Under c (fun t => t.Paid halt 0 ∧ t.debugMode = on) → Q s)
    (write : ((Machine.delay tMode).bind fun _ => (Machine.bus (txDebug on c)).bind fun _ => Machine.delay tMode).Leads
      (State.Under c (·.Paid halt 0)) fun _ => Q) :
    (Machine.setDebugEnabled on false).Leads (State.Under c (·.Paid halt 0)) fun _ => Q := by
  have unforced : Machine.setDebugEnabled on false = Machine.queryDebugEnabled.bind fun b => if b = on then .ret () else
      .get fun s => if !on && s.haltedFlag then .throw (.invalidState .disableWhileHalted)
        else (Machine.delay tMode).bind fun _ => (Machine.bus (txDebug on s.cfg)).bind fun _ => Machine.delay tMode := rfl
  have probed (b : Bool) (s : State) (h : s.Under c fun t => t.Paid halt 0 ∧ t.debugMode = b) : s.Under c (·.Paid halt 0) :=
    ⟨h.oracle, h.cfg, h.autoTaken, h.target.1⟩
  rw [unforced]
  exact queryDebugEnabled.bind fun b => ite (fun hb => ret fun s h => found s (hb ▸ h)) fun _ =>
    (get fun s hs => ite (fun _ => throw _) fun _ => by rw [hs.cfg]; exact write).weaken (probed b)

/-- The policy switches debug mode on, or finds it on, and nothing is owed then. -/
theorem setDebugEnabled_on : (Machine.setDebugEnabled true false).Leads (State.Under c (·.Paid halt 0))
    fun _ => State.Under c (·.Paid false 0) :=
  setDebugEnabled (fun _ h => ⟨h.oracle, h.cfg, h.autoTaken, h.target.1.free⟩)
    ((delay 0 tMode).bind fun _ => (bus fun _ _ _ h e => h.enable e).bind fun _ => delay 50 tMode)

/-- The guard exit that completes leaves debug mode off. -/
theorem setDebugEnabled_off : (Machine.setDebugEnabled false false).Leads (State.Under c (·.Paid halt 0))
    fun _ s => s.target.debugMode = false := by
  have pause : (Machine.delay tMode).Leads (State.Under c (·.debugMode = false)) fun _ s => s.target.debugMode = false :=
    fun s _ t hs run => by
      cases run
      rw [sleep_turned]
      exact (s.turned_debugMode 1).trans hs.target
  exact setDebugEnabled (fun _ h => h.target.2) ((delay 0 tMode).bind fun _ => (bus fun _ _ _ h e => h.disable e).bind fun _ => pause)

/-- A change of the engine's own state that keeps what `Under` speaks of. -/
theorem assignUnder {f : State → State} {Q : Target → Prop}
    (h : ∀ s, State.Under c Q s → State.Under c Q (f s) := by exact fun _ h => ⟨h.oracle, h.cfg, h.autoTaken, h.target⟩) :
    (Machine.assign f).Leads (State.Under c Q) fun _ => State.Under c Q := assign h

/-- The guard of a debug request under the policy (R122). -/
theorem debugGuardEnter : Machine.debugGuardEnter.Leads (State.Starts c) fun _ => State.Under c (·.Paid false 0) :=
  (assign (Q := State.Under c (·.Paid false 0)) fun _ h => ⟨h.oracle, h.cfg, h.debugAutoEnable, h.target⟩).bind fun _ => get fun _ hs => ite
    (fun _ => bind assignUnder fun _ => setDebugEnabled_on) fun taken => absurd hs.autoTaken taken

/-- Its exit (R122). -/
theorem debugGuardExit : Machine.debugGuardExit.Leads (State.Under c (·.Paid halt 0)) fun _ s => s.target.debugMode = false :=
  get fun _ hs => ite (fun _ => setDebugEnabled_off) fun taken => absurd hs.autoTaken taken

/-! Halt control and the transfers (R126, R144 to R152). -/

theorem haltCtl (on : Bool) : (Machine.haltCtl on).Leads (State.Under c (·.Paid halt 0)) fun _ => State.Under c (·.Paid on 0) :=
  (bus fun _ _ _ h e => h.haltFrame e).bind fun _ => bind assignUnder fun _ => delay 100 tHalt

theorem haltOpen {p : Plan} (hsp : p.space ≠ .isp) : p.haltOpen.Leads (State.Under c (·.Paid false 0))
    fun _ => State.Under c (·.Paid p.halt 0) := by
  have halt := Plan.bracket_eq_halt hsp
  refine ite (fun bracket => ?_) fun bracket => ?_
  · rw [← halt, bracket]
    exact (haltCtl true).bind fun _ => bind assignUnder fun _ => assignUnder
  · rw [← halt, Bool.eq_false_iff.2 bracket]
    exact ret fun _ h => h

end Prog.Leads

/-- The delays after a memory command pay what it owes (R193). -/
theorem State.Under.paused {c : Params} {p : Plan} {s : State} (h : s.Under c (·.Paid p.halt p.delay)) :
    (p.paused s).Under c (·.Paid p.halt 0) := by
  unfold Plan.delay at h
  have settle {s : State} (h : s.Under c (·.Paid p.halt (if p.halt then 0 else 10))) :
      (settled p.halt s).Under c (·.Paid p.halt 0) := by
    unfold settled
    split
    · rwa [if_pos ‹_›] at h
    · rw [if_neg ‹_›] at h
      exact h.sleep tSettle
  unfold Plan.paused
  refine settle ?_
  by_cases he : p.space = .eeprom
  · rw [if_pos he] at h ⊢
    have slept := h.sleep tEeprom
    rwa [tEeprom, Nat.add_sub_cancel_left] at slept
  · rw [if_neg he] at h ⊢
    rwa [Nat.zero_add] at h

namespace Prog.Leads

variable {c : Params} {halt : Bool}

theorem transfer {p : Plan} (hsp : p.space ≠ .isp) (j : Nat) : (p.transfer j).Leads (State.Under c (·.Paid p.halt 0))
    fun _ => State.Under c (·.Paid p.halt 0) := by
  intro s a t hs run
  rw [Plan.transfer_debug_run hsp] at run
  obtain ⟨_, u, command, rest⟩ := Res.bind_eq_ok run
  have paid := (hs.transact (fun _ _ _ h e => h.command hsp e) command).paused
  split at rest
  · cases rest
    exact paid
  · obtain ⟨_, v, data, rest⟩ := Res.bind_eq_ok rest
    have read := paid.transact (fun _ _ _ h e => h.data e) data
    cases rest
    exact ⟨read.oracle, read.cfg, read.autoTaken, read.target⟩

theorem transfers {p : Plan} (hsp : p.space ≠ .isp) (k i : Nat) : (p.transfers k i).Leads (State.Under c (·.Paid p.halt 0))
    fun _ => State.Under c (·.Paid p.halt 0) := by
  induction k generalizing i with
  | zero => exact ret fun _ h => h
  | succ k ih => exact (transfer hsp i).bind fun _ => bind assignUnder fun _ => ih (i + 1)

/-! The range operation and `haltMcu` (R125, R131). -/

theorem haltClose (p : Plan) : p.haltClose.Leads (State.Under c (·.Paid halt 0)) fun _ => State.Under c (·.Paid false 0) :=
  bind assignUnder fun _ => (haltCtl false).bind fun _ => bind assignUnder fun _ => get fun _ _ => by
    split
    · exact throw _
    · exact ret fun _ h => h

end Prog.Leads

/-- Halt control does not touch the pending error. -/
theorem haltCtl_pendingError {on : Bool} {s t : State} {a : Unit} (h : (haltCtl on).run s = .ok a t) : t.pendingError = s.pendingError := by
  obtain ⟨o, g, e, -⟩ := transact_cases (txHalt on) s (listed_txHalt _ on)
  rw [haltCtl_run, e] at h
  rcases State.conclude_cases s.mcuActs.dropFate (txHalt on) (outcomeOf (txHalt on) o) g with ⟨rs, -, e⟩ | ⟨k, -, e⟩ | ⟨-, e⟩ <;>
    rw [e] at h <;> cases h
  rfl

/-- A close that runs for a pending error does not complete: it ends with that error or with its own (R129, R130). -/
theorem Plan.haltClose_pending {p : Plan} {s t : State} {e : Err} {a : Unit} (he : s.pendingError = some e) :
    p.haltClose.run s ≠ .ok a t := by
  intro run
  rw [Plan.haltClose_run] at run
  obtain ⟨_, u, closed, rest⟩ := Res.bind_eq_ok run
  rw [(haltCtl_pendingError closed).trans he] at rest
  cases rest

namespace Prog.Leads

variable {c : Params} {halt : Bool}

/-- Transfers that raise do not let the request complete. -/
theorem close {p : Plan} {body : Prog Unit} (h : body.Leads (State.Under c (·.Paid halt 0)) fun _ => State.Under c (·.Paid halt 0)) :
    (p.close body).Leads (State.Under c (·.Paid halt 0)) fun _ => State.Under c (·.Paid false 0) := by
  intro s a t hs run
  rw [Plan.close_run] at run
  cases e : body.run s <;> rw [e] at run
  case ok b u =>
    have ends := h s b u hs e
    rw [Plan.closed] at run
    split at run
    · exact haltClose p u a t ends run
    · cases run
      exact ⟨ends.oracle, ends.cfg, ends.autoTaken, ends.target.free⟩
  case raised er u =>
    rw [Plan.closed] at run
    split at run
    · exact absurd run (Plan.haltClose_pending (e := er) rfl)
    · cases run
  all_goals cases run

/-- A debug range request that completes has switched debug mode off. -/
theorem program {p : Plan} (hsp : p.space ≠ .isp) : p.program.Leads (State.Starts c) fun _ s => s.target.debugMode = false := by
  have gate : p.gate = Machine.debugGuardEnter := by
    unfold Plan.gate
    cases hs : p.space with
    | isp => exact absurd hs hsp
    | xdata => rfl
    | eeprom => rfl
  have exit : p.exit = Machine.debugGuardExit := by
    unfold Plan.exit
    cases hs : p.space with
    | isp => exact absurd hs hsp
    | xdata => rfl
    | eeprom => rfl
  have check : p.check.Leads (State.Under c (·.Paid false 0)) fun _ => State.Under c (·.Paid false 0) := by
    refine ite (fun _ => throw _) fun _ => ?_
    split
    · exact throw _
    · exact ret fun _ h => h
  have start : p.advance.Leads (State.Starts c) fun _ => State.Starts c :=
    assign fun _ h => ⟨h.oracle, h.cfg, h.debugAutoEnable, h.target⟩
  have answer : (Prog.get fun s => .ret (if p.write then .void else .bytes s.result)).Leads (·.target.debugMode = false)
      fun (_ : Result) s => s.target.debugMode = false := get fun _ _ => ret fun _ h => h
  unfold Plan.program
  rw [gate, exit]
  exact start.bind fun _ => debugGuardEnter.bind fun _ => bind assignUnder fun _ => check.bind fun _ =>
    bind assignUnder fun _ => (haltOpen hsp).bind fun _ => (close (transfers hsp _ _)).bind fun _ => debugGuardExit.bind fun _ => answer

/-- So has `dbg.halt`. -/
theorem haltMcu (on : Bool) : (Machine.haltMcu on).Leads (State.Starts c) fun _ s => s.target.debugMode = false :=
  have start (ph : State → Phase) : (atPhase ph).Leads (State.Starts c) fun _ => State.Starts c :=
    assign fun _ h => ⟨h.oracle, h.cfg, h.debugAutoEnable, h.target⟩
  have place (ph : State → Phase) {Q : Target → Prop} : (atPhase ph).Leads (State.Under c Q) fun _ => State.Under c Q := assignUnder
  (start _).bind fun _ => debugGuardEnter.bind fun _ => (place _).bind fun _ => (haltCtl on).bind fun _ => (place _).bind fun _ =>
  debugGuardExit.bind fun _ => ret fun _ h => h

end Prog.Leads

/-- A request answered with a result has completed with it. -/
theorem Prog.WritesSilently.completed {p : Prog Result} (hp : p.WritesSilently) {s t : State} {r : Result}
    (h : (p.run s).finish = .next t) (hr : t.responses = s.responses ++ [.ok r]) : ∃ r' u, p.run s = .ok r' u ∧ t.target = u.target := by
  have recorded := hp.run s
  cases e : p.run s <;> rw [e] at h recorded <;> cases h
  case ok r' u => exact ⟨r', u, rfl, rfl⟩
  case raised er u =>
    obtain ⟨evs, records, -⟩ := recorded
    rw [State.takeError_responses, records.responses] at hr
    cases List.append_cancel_left hr
  case hung =>
    obtain ⟨evs, ev, records, -⟩ := recorded
    rw [records.responses] at hr
    simp at hr

/-- A request that is served finds the block Ready (R25). -/
theorem life_of_served {i : Instr} {q : Latches} (hq : latchesOf i = some q) {s t : State} (h : exec i s = .next t) :
    s.life = .ready := by
  by_contra hl
  rw [exec_request hq, if_neg hl] at h
  cases h

/-- Settles O47: a request that completes has come through its guard exit (`Prog.Leads.program`, `Prog.Leads.haltMcu`). -/
theorem debugIsOffAfterThePolicy : Obligations.DebugIsOffAfterThePolicy := by
  unfold Obligations.DebugIsOffAfterThePolicy
  intro i s t r guarded ho ht hpol served hr
  have starts (q : Latches) : (s.accept q).Starts s.cfg := ⟨ho, rfl, hpol, ht.1.le, ht.2.le, nofun⟩
  rcases debugProtected_cases guarded with ⟨on, rfl⟩ | ⟨sp, a, n, w, asked, hsp⟩
  case inl =>
    rw [exec_dbgHalt_run on (life_of_served rfl served)] at served
    obtain ⟨r', u, run, target⟩ := (Prog.WritesSilently.haltMcu on).completed served hr
    rw [target]
    exact Prog.Leads.haltMcu on _ r' u (starts _) run
  case inr =>
    obtain ⟨q, hq, hp, -⟩ := plan_of_asked asked
    rw [exec_range hq hp s (life_of_served hq served)] at served
    obtain ⟨r', u, run, target⟩ := (Prog.WritesSilently.program _).completed served hr
    rw [target]
    exact Prog.Leads.program (by exact hsp) _ r' u (starts q) run

end Sys2Proof.Machine
end

section
/-! PROOF. `dbg.halt` without the policy (R131), and halt control the transport fails, as in the open of the bracket (R126, R130). -/

namespace Sys2Proof.Machine

/-- Settles O34: without the policy the guard exit does nothing (`haltMcu_exits`). -/
theorem haltMcu_holds : Obligations.HaltMcu := by
  unfold Obligations.HaltMcu
  intro s on hs ha hpol hc
  obtain ⟨hl, ho, hm⟩ := hs
  obtain ⟨ph, b, g, run, hg⟩ := haltMcu_exits on (s := s.accept { op := .dbgHalt, on := on }) ho hm ha.2 (.inl ha.1) hc
  have events : enableEvents s.cfg s.target.debugMode b = [rOk .dbg [] [b]] := by rw [ha.1]; rfl
  refine ⟨b, g, ?_, fun x => (hg.peek x).trans (by simp), hg.modes⟩
  rw [exec_dbgHalt_run on hl, run, debugGuardExit_run, if_neg (by simp [hpol])]
  simp only [State.accept_cfg, State.accept_target, events]
  rfl

/-- The target once it has taken a halt command (R69), which ends the time of a write still owed (R71). -/
def Target.haltTaken (t : Target) (on : Bool) : Target := { t.unsettle with mcuHalted := on, owedCmd := tHalt }

theorem txHalt_answer {t : Target} (ha : t.unsettle.Answers) {c : Params} (hc : HaltDistinct c) (on : Bool) :
    t.answer c (txHalt on) = some (.ok [], t.haltTaken on) := by
  obtain ⟨mode, inTime, -⟩ := ha
  have distinct : [cmdHalt, if on then haltVal else runVal] ≠ c.disable.bytes := by
    cases on with
    | true => exact hc.1.symm
    | false => exact hc.2.symm
  have command : t.unsettle.dbgCommand [cmdHalt, if on then haltVal else runVal] = some (t.haltTaken on) := by cases on <;> rfl
  simp only [Target.answer, txHalt, Target.reply, Target.dbgFrame, not_not.2 inTime, if_false, mode, Bool.not_true,
    Bool.false_eq_true, distinct, command, Option.map_some]

/-- The target `g` that a halt command to `t` leaves where the transport reports it as failed (R164): it has taken the frame or not. -/
structure Target.HaltFailed (t : Target) (on took : Bool) (g : Target) : Prop where
  missed : took = false → g = t
  taken : took = true → g.SameBytes t.unsettle ∧ g.Modes true on t.ispPtr

/-- Halt control the transport fails: the flag is not written and no delay follows (R126). -/
theorem haltCtl_failed (on : Bool) {s : State} {k : ErrClass} {took : Bool} (hm : s.mcu = [])
    (ho : s.oracle = [.override (.err k) took]) (ha : s.target.unsettle.Answers) (hc : HaltDistinct s.cfg) : ∃ g,
    (haltCtl on).run s = .raised (.transportError k)
      ((s.facing []).after [.w .dbg [0x80, if on then 0x01 else 0x00] (.err k)] g) ∧ s.target.HaltFailed on took g := by
  refine ⟨if took then (s.target.haltTaken on).reported s.target (.err k) else s.target, ?_, fun h => by simp [h], fun h => ?_⟩
  · rw [haltCtl_run, transact_failed hm (txHalt_answer ha hc on) ho]
    rfl
  · rw [h, if_pos rfl]
    refine ⟨fun x => ?_, ?_, ?_, ?_⟩
    · rw [Target.reported_peek]
      cases x <;> rfl
    · simpa [Target.haltTaken] using ha.1
    · simp [Target.haltTaken]
    · simp [Target.haltTaken]

/-- The gate of a debug request before a transport that lets the device answer it and does `fs` after it. -/
theorem Plan.gate_facing {p : Plan} (hsp : p.space ≠ .isp) {s : State} (hm : s.mcu = []) (ha : s.target.Answers)
    (hpol : s.debugAutoEnable = false) {fs : List Fate} (ho : s.oracle = .device :: fs) : ∃ ph b g,
    p.gate.run (p.move true s) = .ok () (State.after { s with autoTaken := false, phase := ph, oracle := fs } [rOk .dbg [] [b]] g) ∧
    g.SameCore s.target := by
  obtain ⟨b, g, gate, core⟩ := Plan.gate_probe (s := s.facing []) hsp ⟨rfl, .inl hm⟩ ha hpol
  obtain ⟨k, count, run⟩ := (Prog.TransportBlind.gate hsp).run rfl gate
  have once : k = 1 := by
    rw [State.after_trace, txns_append] at count
    exact (Nat.add_left_cancel count).symm
  have self : p.move true s = (p.move true (s.facing [])).facing (.device :: fs) := by rw [← ho]; rfl
  have ran := run fs
  rw [once, List.replicate_one, List.singleton_append, ← self] at ran
  exact ⟨_, b, g, ran, core⟩

/-- A request that uses the bracket is one on the debug interface (R127). -/
theorem space_of_bracketed {i : Instr} {sp : Space} {a : Int} {n : Option Int} {w : Bool} (hb : bracketed i = true)
    (asked : rangeAsked i = some (sp, a, n, w)) : sp ≠ .isp := by
  obtain ⟨_, -, -, halts, -⟩ := plan_of_asked asked
  rintro rfl
  simp [halts] at hb

/-- Settles O50: the gate is answered, halt control is not, and no bracket is open. -/
theorem aFailedOpenIsNotClosed : Obligations.AFailedOpenIsNotClosed := by
  unfold Obligations.AFailedOpenIsNotClosed
  intro i s sp a n w took k hl hm ho ha hpol hc hb asked hw
  obtain ⟨q, p, hp, -⟩ := plan_serves asked (space_of_bracketed hb asked) hw
  obtain ⟨ph, b, t, gate, core⟩ := Plan.gate_facing (p := p) (s := s.accept q) hp.inRange.space hm ha hpol ho
  generalize hu : State.after _ _ t = u at gate
  have target : (p.move true (p.move true u)).target = t := by rw [← hu]; rfl
  have same : t.unsettle = t := t.unsettle_settled (core.settled ha.2).2
  obtain ⟨g, failed, halt⟩ := haltCtl_failed true (s := p.move true (p.move true u)) (k := k) (took := took)
    (by rw [← hu]; simp [hm]) (by rw [← hu]; rfl) (by rw [target, same]; exact core.answers ha) (by rw [← hu]; exact hc)
  rw [target] at halt
  refine ⟨b, g, ?_, ?_⟩
  · rw [hp.exec hl, Plan.program_run, gate, Res.bind_ok, hp.check, Res.bind_ok, Plan.haltOpen_run, hp.bracket.trans hb, if_pos rfl,
      failed, ← hu]
    simp [Res.finish, State.takeError, State.respond, State.answered, State.after, State.facing, State.accept, Plan.move, State.move,
      hp.latches, hm]
  · cases took with
    | false =>
      obtain rfl := halt.missed rfl
      exact ⟨core.peek, by simpa [ha.1] using core.modes⟩
    | true =>
      obtain ⟨bytes, mode, halted, ptr⟩ := halt.taken rfl
      rw [same] at bytes
      exact ⟨fun x => (bytes x).trans (core.peek x), mode, by simpa using halted, ptr.trans core.ispPtr⟩

end Sys2Proof.Machine
end

section
/-! PROOF. The close of the bracket fails, after all the transfers or after one that failed (R130, R164). -/

namespace Sys2Proof.Machine

/-! A transport whose list is used up by a failure: what it would do after that is not looked at. -/

/-- A transaction before a longer list. -/
theorem transact_before (x : Txn) {s : State} {f : Fate} {fs : List Fate} (ho : s.oracle = f :: fs) (fs' : List Fate) :
    transact x (s.facing (f :: fs ++ fs')) = (transact x s).onState (·.facing (fs ++ fs')) := by
  rw [transact_fate x (s.facing _), transact_fate x s, ho]
  change (transactAs f x s.calm).onState _ = ((transactAs f x s.calm).onState _).onState _
  cases transactAs f x s.calm <;> rfl

/-- A run that fails after as many transactions as the transport's list has fates fails so before every longer list. -/
theorem Prog.TransportBlind.run_raised {α : Type} {p : Prog α} (hp : p.TransportBlind) {s t : State} {er : Err}
    (h : p.run s = .raised er t) : ∃ k, txns t.trace = txns s.trace + k ∧
      (k = s.oracle.length → ∀ fs, p.run (s.facing (s.oracle ++ fs)) = .raised er (t.facing fs)) := by
  induction p generalizing s with
  | ret b => cases h
  | throw e => cases h; exact ⟨0, rfl, fun count fs => by rw [List.length_eq_zero_iff.1 count.symm]; rfl⟩
  | fault f => cases h
  | bus x r ih =>
    have next {o : Except Err (List Byte)} {u : State} (hu : txns u.trace = txns s.trace + 1 ∧ u.oracle = s.oracle.tail)
        (hr : (r o).run u = .raised er t) : ∃ k, txns t.trace = txns s.trace + (k + 1) ∧ ∀ f rest, s.oracle = f :: rest →
          k + 1 = s.oracle.length → ∀ fs, (r o).run (u.facing (rest ++ fs)) = .raised er (t.facing fs) := by
      obtain ⟨k, hk, hfs⟩ := ih o (hp o) hr
      refine ⟨k, by rw [hk, hu.1]; omega, fun f rest list count fs => ?_⟩
      rw [hu.2, list, List.tail_cons] at hfs
      exact hfs (by simpa [list] using count) fs
    rw [Prog.run_bus] at h
    cases e : transact x s <;> rw [e] at h
    case ok rs u =>
      obtain ⟨k, hk, hfs⟩ := next (transact_counts (.inl ⟨rs, e⟩)) h
      refine ⟨k + 1, hk, fun count fs => ?_⟩
      obtain ⟨f, rest, list⟩ := List.exists_cons_of_length_eq_add_one count.symm
      rw [Prog.run_bus, list, transact_before x list, e]
      exact hfs f rest list count fs
    case raised er' u =>
      obtain ⟨k, hk, hfs⟩ := next (transact_counts (.inr ⟨er', e⟩)) h
      refine ⟨k + 1, hk, fun count fs => ?_⟩
      obtain ⟨f, rest, list⟩ := List.exists_cons_of_length_eq_add_one count.symm
      rw [Prog.run_bus, list, transact_before x list, e]
      exact hfs f rest list count fs
    all_goals cases h
  | sleep ms r ih =>
    obtain ⟨k, hk, hfs⟩ := ih hp (s := Machine.sleep ms s) h
    exact ⟨k, hk.trans (by simp [txns, Event.isTxn, txnOf]), hfs⟩
  | get r ih =>
    obtain ⟨k, hk, hfs⟩ := ih s (hp.2 s) h
    exact ⟨k, hk, fun count fs => by rw [Prog.run_get, hp.1]; exact hfs count fs⟩
  | set f r ih =>
    have faced : f s = (f s).facing s.oracle := hp.1 s s.oracle
    have oracle : (f s).oracle = s.oracle := by rw [faced]; rfl
    obtain ⟨k, hk, hfs⟩ := ih hp.2.2 h
    refine ⟨k, by rw [hk, hp.2.1], fun count fs => ?_⟩
    rw [Prog.run_set, hp.1]
    exact oracle ▸ hfs (oracle ▸ count) fs

/-! A transfer that fails inside the bracket, and what it leaves. -/

/-- What a failed transfer `j` has done to the bytes of the target before the next frame: a write that took effect has stored its
element. -/
def Plan.Left (p : Plan) (t : Target) (j : Nat) (took : Bool) (g : Target) : Prop :=
  if p.write && took then g.Stores t (p.loc j) (p.value j) else g.SameBytes t

/-- The target a failed transfer `j` leaves inside the bracket, and what the next frame finds of it (R71). -/
structure Plan.Broken (p : Plan) (t : Target) (j : Nat) (took : Bool) (g : Target) : Prop where
  modes : g.Modes true true t.ispPtr
  left : p.Left t j took g
  settled : g.unsettle.Settled
  found : p.Failed t j took g.unsettle

theorem Plan.Left.failed {p : Plan} {t g : Target} {j : Nat} {took : Bool} (h : p.Left t j took g) : p.Failed t j took g := by
  unfold Plan.Left at h
  unfold Plan.Failed
  split
  · rw [if_pos ‹_›] at h
    exact ⟨_, h, fun _ => rfl⟩
  · rwa [if_neg ‹_›] at h

/-- The next frame is answered, and finds debug mode on. -/
theorem Plan.Broken.answers {p : Plan} {t g : Target} {j : Nat} {took : Bool} (h : p.Broken t j took g) : g.unsettle.Answers :=
  ⟨g.unsettle_debugMode.trans h.modes.1, h.settled⟩

/-- A command reported as failed has stored its element, where it took effect and writes. -/
theorem Plan.command_left {p : Plan} {t : Target} (hwf : p.write = true → t.wf) (j : Nat) (k : ErrClass) (took : Bool) :
    p.Left t j took (if took then (p.commanded t j).reported t (.err k) else t) := by
  unfold Plan.Left Plan.commanded
  cases took with
  | false => rw [if_neg (by simp), if_neg (by simp)]; exact fun x => rfl
  | true =>
    cases hw : p.write with
    | false => exact fun x => (Target.reported_peek ..).trans (Target.setup_peek ..)
    | true =>
      obtain ⟨byte, others⟩ := (t.store_stores (hwf hw) (p.loc j) (p.value j) (p.settleTime t)).1
      exact ⟨(Target.reported_peek ..).trans byte, fun x hx => (Target.reported_peek ..).trans (others x hx)⟩

/-- A transfer fails inside the bracket, at its command or at its data read. -/
theorem Plan.transfer_broken {p : Plan} (hp : p.Debug) (hh : p.halt = true) {u : State} (hm : u.mcu = []) (ha : u.target.Answers)
    (hhalt : u.target.mcuHalted = true) (hwf : p.write = true → u.target.wf) {j : Nat} {pre post : List Event} {e : Event}
    (hmv : p.moves u.target j = pre ++ e :: post) (he : e.isTxn = true) {k : ErrClass} {took : Bool}
    (ho : u.oracle = List.replicate (txns pre) .device ++ [.override (.err k) took]) : ∃ g,
    (p.transfer j).run u = .raised (.transportError k) ((u.facing []).after (pre ++ [e.failed k]) g) ∧
      p.Broken u.target j took g := by
  obtain ⟨g, run, modes, settled, found⟩ := Plan.transfer_failed hp hh hm ha hhalt hwf hmv he ho
  refine ⟨g, run, by simpa [Target.Modes] using modes, ?_, settled, found⟩
  rcases Plan.moves_split hh hmv he with ⟨rfl, rfl⟩ | ⟨hw, rfl, rfl⟩
  · rw [Plan.transfer_debug_run hp.space,
      transact_failed hm (Plan.command_answer hp.space ha _ j) (by simpa [txns] using ho)] at run
    have target : _ = g := congrArg State.target (Res.raised.inj run).2
    exact target ▸ Plan.command_left hwf j k took
  · have once : u.oracle = [.device, .override (.err k) took] := by
      rw [ho, ← List.singleton_append, txns_append, txns_eventOf, Plan.txns_pause hh]
      rfl
    obtain ⟨g', run', hg'⟩ := Plan.dataRead_failed hp hh hw hm ha hhalt j once
    have target : g' = g := congrArg State.target (Res.raised.inj (run'.symm.trans run)).2
    unfold Plan.Left
    rw [hw, if_neg (by simp)]
    exact target ▸ hg'.peek

/-! The transfers before a transport that fails after them. -/

/-- The first `j` transfers inside the bracket, before a transport that lets the device answer them and does `fs` after them. -/
theorem Plan.transfers_facing {p : Plan} (hp : p.Debug) {u : State} (hm : u.mcu = []) (ha : u.target.Answers)
    (hhalt : u.target.mcuHalted = true) (hwf : p.write = true → u.target.wf) {j : Nat} (hj : j ≤ p.count) {fs : List Fate}
    (ho : u.oracle = List.replicate (txns ((List.range j).flatMap (p.moves u.target))) .device ++ fs) : ∃ ph m,
    (p.transfers j 0).run u = .ok () (State.after
      { u with phase := ph, result := u.result ++ (List.range j).flatMap (p.out u.target), oracle := fs }
      ((List.range j).flatMap (p.moves u.target)) m) ∧ p.Reached u.target j m := by
  obtain ⟨ph, m, run, reached⟩ := Plan.transfers_debug hp (s := u.facing []) ⟨rfl, .inl hm⟩ ha (fun _ => hhalt) hwf hj
  obtain ⟨n, count, ran⟩ := (Prog.TransportBlind.transfers hp.space j 0).run rfl run
  rw [State.after_trace, txns_append] at count
  have ran := ran fs
  rw [← Nat.add_left_cancel count, show (u.facing []).target = u.target from rfl, ← ho] at ran
  exact ⟨ph, m, ran, reached⟩

@[simp] theorem Event.isTxn_failed (k : ErrClass) (e : Event) : (e.failed k).isTxn = e.isTxn := by cases e <;> rfl

/-- Transfers of which one fails inside the bracket, before a transport that does `fs` after the failure. -/
theorem Plan.transfers_broken {p : Plan} (hp : p.Debug) (hh : p.halt = true) {u : State} (hm : u.mcu = []) (ha : u.target.Answers)
    (hhalt : u.target.mcuHalted = true) (hwf : p.write = true → u.target.wf) {pre post : List Event} {e : Event}
    (hev : (List.range p.count).flatMap (p.moves u.target) = pre ++ e :: post) (he : e.isTxn = true) {k : ErrClass} {took : Bool}
    {fs : List Fate} (ho : u.oracle = List.replicate (txns pre) .device ++ .override (.err k) took :: fs) : ∃ ph out j m g,
    (p.transfers p.count 0).run u = .raised (.transportError k)
      (State.after { u with phase := ph, result := out, oracle := fs } (pre ++ [e.failed k]) g) ∧
      j < p.count ∧ (p.write = true → txns pre = j) ∧ p.Reached u.target j m ∧ p.Broken m j took g := by
  obtain ⟨j, hj, pre', post', rfl, hmv⟩ := flatMap_range_split hev
  rw [txns_append, List.replicate_add, List.append_assoc] at ho
  obtain ⟨ph, m, before, reached⟩ := Plan.transfers_facing hp hm ha hhalt hwf hj.le ho
  generalize hv : State.after _ _ m = v at before
  have target : v.target = m := by rw [← hv]; rfl
  obtain ⟨g, failed, broken⟩ := Plan.transfer_broken hp hh
    (u := v.facing (List.replicate (txns pre') .device ++ [.override (.err k) took])) (by rw [← hv]; simp [State.facing, hm])
    (target ▸ reached.answers) (target ▸ reached.mcuHalted.trans hhalt) (target ▸ reached.wf)
    (target ▸ (reached.moves_eq j).1.trans hmv) he rfl
  obtain ⟨n, count, longer⟩ := (Prog.TransportBlind.transfer hp.space j).run_raised failed
  have used : n = txns pre' + 1 := by
    simp only [State.after_trace, txns_append] at count
    rw [← Nat.add_left_cancel count]
    simp [txns, he]
  have longer := longer (by simp [used, State.facing]) fs
  have self : v.facing (List.replicate (txns pre') .device ++ [.override (.err k) took] ++ fs) = v := by
    rw [← hv, List.append_assoc]
    rfl
  change (p.transfer j).run (v.facing (List.replicate (txns pre') .device ++ [.override (.err k) took] ++ fs)) = _ at longer
  rw [self] at longer
  refine ⟨ph, u.result ++ (List.range j).flatMap (p.out u.target), j, m, g, ?_, hj, fun hw => ?_, reached, target ▸ broken⟩
  · rw [show p.count = j + (p.count - j - 1 + 1) by omega, Plan.transfers_add, before, Res.bind_ok, Plan.transfers_succ_run,
      Nat.zero_add, longer, Res.bind_raised, ← hv]
    simp [State.after, State.facing, hm]
  · rw [txns_append, Plan.txns_moves hh hw]
    rcases Plan.moves_split hh hmv he with ⟨rfl, -⟩ | ⟨hr, -⟩
    · rfl
    · rw [hr] at hw; cases hw

/-! The close that fails. -/

/-- The close's run frame fails, after transfers that completed or did not: its error is the one raised. -/
theorem Plan.closed_broken {p : Plan} {s : State} {r : Res Unit} (hr : r = .ok () s ∨ ∃ e, r = .raised e s)
    (hop : s.bracketOpen = true) (hm : s.mcu = []) {k : ErrClass} {took : Bool} (ho : s.oracle = [.override (.err k) took])
    (ha : s.target.unsettle.Answers) (hc : HaltDistinct s.cfg) : ∃ ph pe g, p.closed r = .raised (.transportError k) (State.after
        { s with bracketOpen := false, phase := ph, pendingError := pe, oracle := [] } [.w .dbg [0x80, 0x00] (.err k)] g) ∧
      s.target.HaltFailed false took g := by
  rcases hr with rfl | ⟨e, rfl⟩
  · obtain ⟨g, failed, halt⟩ := haltCtl_failed false (s := s.markClosed) hm ho ha hc
    refine ⟨s.phase, s.pendingError, g, ?_, halt⟩
    rw [Plan.closed, if_pos hop, Plan.haltClose_run, failed, Res.bind_raised]
    rfl
  · obtain ⟨g, failed, halt⟩ := haltCtl_failed false (s := (p.move false (s.pend e)).markClosed) hm ho ha hc
    refine ⟨(p.move false (s.pend e)).phase, some e, g, ?_, halt⟩
    rw [Plan.closed, if_pos hop, Plan.haltClose_run, failed, Res.bind_raised]
    rfl

/-- The state `u` after the opening of the bracket of a request to `s`, before a transport that does `fs` after that. -/
structure Plan.Opened (p : Plan) (i : Instr) (q : Latches) (s u : State) (fs : List Fate) (evs : List Event) : Prop where
  opened : p.opening.run (s.accept q) = .ok () u
  state : ∃ ph, u = State.after
    { s.accept q with autoTaken := s.debugAutoEnable, phase := ph, haltedFlag := true, bracketOpen := true, oracle := fs } evs u.target
  core : u.target.SameCore ((s.target.inDebug true).inHalt true)
  moves : transferEvents s.target i = (List.range p.count).flatMap (p.moves u.target)

/-- The bracket opened before a transport that lets the device answer, and does `fs` after that. -/
theorem Plan.Serves.opens {p : Plan} {i : Instr} {q : Latches} (hp : p.Serves i q) (hb : bracketed i = true) {s : State}
    (hm : s.mcu = []) (hs : s.target.Settled) (hd : s.target.debugMode = true ∨ s.debugAutoEnable = true)
    (hc : HaltDistinct s.cfg) {fs : List Fate}
    (ho : s.oracle = List.replicate ((if s.target.debugMode then 1 else 2) + 1) .device ++ fs) : ∃ b u,
    Plan.Opened p i q s u fs (enableEvents s.cfg s.target.debugMode b ++ [wOk .dbg [0x80, 0x01], .d 100]) := by
  obtain ⟨ph, b, t, opened, ht⟩ := Plan.opening_facing hp.inRange (s := s.accept q) hp.check (hp.bracket.trans hb) hm hs hd hc ho
  have same : t.SameBytes s.target := fun x => (ht.peek x).trans (by simp)
  refine ⟨b, _, opened, ⟨ph, rfl⟩, ht, ?_⟩
  rw [transferEvents_of_plan hp.latches hp.plan hp.inRange.space, State.after_target, Plan.moves_congr same]

/-- A bracketed request whose close fails is answered with the close's error. -/
theorem Plan.Serves.exec_closeFailed {p : Plan} {i : Instr} {q : Latches} (hp : p.Serves i q) {s u v : State} {r : Res Unit}
    (hl : s.life = .ready) (hm : s.mcu = []) (hc : HaltDistinct s.cfg) {fs : List Fate} {evs evs' : List Event}
    (hu : Plan.Opened p i q s u fs evs) (made : (p.transfers p.count 0).run u = r) (hr : r = .ok () v ∨ ∃ e, r = .raised e v)
    {k : ErrClass} {took : Bool} {ph : Phase} {out : List Byte} {m : Target}
    (hv : v = State.after { u with phase := ph, result := out, oracle := [.override (.err k) took] } evs' m)
    (ha : m.unsettle.Answers) : ∃ g,
    Machine.exec i s = .next ((State.after { s with haltedFlag := true, oracle := [] }
      (evs ++ evs' ++ [.w .dbg [0x80, 0x00] (.err k)]) g).answered i (.error (.transportError k))) ∧ m.HaltFailed false took g := by
  obtain ⟨opened, ⟨ph', state⟩, -, -⟩ := hu
  generalize u.target = t at state
  have target : v.target = m := by rw [hv]; rfl
  obtain ⟨ph'', pe, g, closed, halt⟩ := Plan.closed_broken (p := p) (s := v) hr (by rw [hv, state]; rfl)
    (by rw [hv, state]; simp [hm]) (by rw [hv]; rfl) (target ▸ ha) (by rw [hv, state]; exact hc)
  refine ⟨g, ?_, target ▸ halt⟩
  rw [hp.exec hl, Plan.program_opening, opened, Res.bind_ok, made, closed, hv, state]
  simp [Res.finish, State.takeError, State.respond, State.answered, State.after, State.accept, hp.latches, hm]

/-- Where the location of the failed element holds the element, the write is as good as settled. -/
theorem Target.FailedAt.settle {g t : Target} {i : Instr} {n : Nat} {took settled : Bool} (h : g.FailedAt t i n took settled)
    (element : ∀ loc vs, writesTo i = some (loc, vs) → took = true → n < vs.length ∧ vs[n]? = some (g.peek (loc n))) :
    g.FailedAt t i n took true := by
  unfold Target.FailedAt at h ⊢
  cases hw : writesTo i with
  | none => simpa only [hw] using h
  | some dest =>
    obtain ⟨loc, vs⟩ := dest
    simp only [hw] at h ⊢
    cases took with
    | false => exact h
    | true =>
      obtain ⟨len, held⟩ := element loc vs hw rfl
      obtain ⟨v, stores, -⟩ := h
      refine ⟨v, stores, fun _ => held.trans (congrArg some ?_)⟩
      have size : (vs.take n).length = n := by simp; omega
      have last := stores.1 n (by simp; omega)
      rwa [List.getElem_append_right size.le, List.getElem_singleton] at last

/-- The modes after a close that failed, the MCU halted before it. -/
theorem Target.HaltFailed.modes {t g : Target} {took : Bool} {ptr : Byte} (h : t.HaltFailed false took g) (ht : t.Modes true true ptr) :
    g.Modes true (!took) ptr := by
  cases took with
  | false => exact h.missed rfl ▸ ht
  | true =>
    obtain ⟨-, mode, halted, kept⟩ := h.taken rfl
    exact ⟨mode, halted, kept.trans ht.2.2⟩

/-- After a close that failed the location of the failed element holds the element, or any byte where the close took effect (R71). -/
theorem Plan.Serves.failedAt_close {p : Plan} {i : Instr} {q : Latches} (hp : p.Serves i q) {t₀ t m g₀ g : Target} {j n : Nat}
    {took' took : Bool} (ht : t₀.SameBytes t) (hj : j < p.count) (hn : p.write = true → n = j) (hr : p.Reached t₀ j m)
    (broken : p.Broken m j took' g₀) (halt : g₀.HaltFailed false took g) :
    g.FailedAt t i n took' (p.space == .xdata || !took) := by
  cases took with
  | true => simpa using hp.failedAt ht hj hn hr (broken.found.congr (halt.taken rfl).1)
  | false =>
    obtain rfl := halt.missed rfl
    simp only [Bool.not_false, Bool.or_true]
    refine (hp.failedAt ht hj hn hr broken.left.failed).settle fun loc vs dest effect => ?_
    have writes := hp.writes.symm.trans dest
    have left := broken.left
    cases hw : p.write with
    | false => simp [hw] at writes
    | true =>
      rw [hw, if_pos rfl] at writes
      cases writes
      obtain rfl := hn hw
      have len : n < p.values.length := by rw [hp.inRange.values hw]; exact hj
      rw [Plan.Left, hw, effect, if_pos (by rfl)] at left
      exact ⟨len, by rw [left.1, Plan.value_eq len, List.getElem?_eq_getElem len]⟩

/-- Settles O49: the close's error is raised whatever the transfers ended in (`Plan.Serves.exec_closeFailed`). -/
theorem aFailedCloseIsReported : Obligations.AFailedCloseIsReported := by
  unfold Obligations.AFailedCloseIsReported
  intro i s sp a n w k took hl hm hwf hs hd hc hb asked hw gate evs ends
  obtain ⟨q, p, hp, rfl, -, -, rfl⟩ := plan_serves asked (space_of_bracketed hb asked) hw
  refine ⟨fun ho => ?completed, fun pre post e k' took' hev he ho => ?broken⟩
  all_goals
    rw [List.replicate_add, List.append_assoc] at ho
    obtain ⟨b, u, opened⟩ := hp.opens hb hm hs hd hc ho
    obtain ⟨ph, hu⟩ := opened.state
    have core := opened.core
    have same : u.target.SameBytes s.target := fun x => (core.peek x).trans (by simp)
    have mcu : u.mcu = [] := by rw [hu]; simp [hm]
    have answers : u.target.Answers := ⟨core.debugMode, core.settled hs⟩
  case completed =>
    obtain ⟨ph', m, made, reached⟩ := Plan.transfers_facing hp.inRange mcu answers core.mcuHalted (fun _ => core.wf hwf) le_rfl
      (fs := [.override (.err k) took]) (by rw [← opened.moves, hu]; rfl)
    rw [← opened.moves] at made
    have same' : m.unsettle = m := m.unsettle_settled reached.answers.2.2
    obtain ⟨g, run, halt⟩ := hp.exec_closeFailed hl hm hc opened made (.inl rfl) rfl (by rw [same']; exact reached.answers)
    have modes := halt.modes ⟨reached.answers.1, reached.mcuHalted.trans core.mcuHalted, reached.ispPtr.trans core.ispPtr⟩
    refine ⟨b, g, ⟨run, modes⟩, hp.holdsAfter reached same fun x => ?_⟩
    cases took with
    | false => rw [halt.missed rfl]
    | true => exact same' ▸ (halt.taken rfl).1 x
  case broken =>
    obtain ⟨ph', out, j, m, g₀, made, hj, count, reached, broken⟩ := Plan.transfers_broken hp.inRange (hp.halt.trans hb) mcu
      answers core.mcuHalted (fun _ => core.wf hwf) (opened.moves.symm.trans hev) he (by rw [hu]; rfl)
    obtain ⟨g, run, halt⟩ := hp.exec_closeFailed hl hm hc opened made (.inr ⟨_, rfl⟩) rfl broken.answers
    have modes := halt.modes ⟨broken.modes.1, broken.modes.2.1, broken.modes.2.2.trans (reached.ispPtr.trans core.ispPtr)⟩
    exact ⟨b, g, ⟨run, modes⟩, hp.failedAt_close same hj count reached broken halt⟩

end Sys2Proof.Machine
end

section
/-! PROOF. The sequencer position along a range request (R28, R133): every transaction is issued at the phase that emits it, and an open
bracket is closed (R129), whatever the transport answers. -/

namespace Sys2Proof.Machine

/-- The states stand at the same sequencer position, and the table of R133 finds the same facts. -/
structure SamePosition (s t : State) : Prop where
  phase : t.phase = s.phase
  autoTaken : t.autoTaken = s.autoTaken
  bracketOpen : t.bracketOpen = s.bracketOpen
  pendingError : t.pendingError = s.pendingError
  cfg : t.cfg = s.cfg

theorem SamePosition.refl (s : State) : SamePosition s s := ⟨rfl, rfl, rfl, rfl, rfl⟩

theorem SamePosition.trans {s t u : State} (h : SamePosition s t) (h' : SamePosition t u) : SamePosition s u :=
  ⟨h'.phase.trans h.phase, h'.autoTaken.trans h.autoTaken, h'.bracketOpen.trans h.bracketOpen,
    h'.pendingError.trans h.pendingError, h'.cfg.trans h.cfg⟩

/-- The last event is a hang of a transaction that the phase emits. -/
def State.HungAtPhase (s : State) : Prop := ∃ pre e x, s.trace = pre ++ [e] ∧ answerOf e = some .hang ∧ txnOf e = some x ∧
  emittedIn s.cfg s.phase x = true

/-- The operation completes with `Q`, or raises with `E`, or hangs at the phase that emits the transaction. -/
def Res.Placed {α : Type} (Q E : State → Prop) : Res α → Prop
  | .ok _ s => Q s
  | .raised _ s => E s
  | .hung s => s.HungAtPhase
  | .fault _ => True
  | .refused _ => True

theorem Res.Placed.bind {α β : Type} {Q Q' E : State → Prop} {r : Res α} {k : α → State → Res β} (h : r.Placed Q E)
    (hk : ∀ a s, Q s → (k a s).Placed Q' E) : (r.bind k).Placed Q' E := by
  cases r with
  | ok a s => exact hk a s h
  | raised e s => exact h
  | hung s => exact h
  | fault f => trivial
  | refused q => trivial

theorem Res.Placed.mono {α : Type} {Q Q' E E' : State → Prop} {r : Res α} (h : r.Placed Q E) (hQ : ∀ s, Q s → Q' s)
    (hE : ∀ s, E s → E' s) : r.Placed Q' E' := by
  cases r with
  | ok a s => exact hQ s h
  | raised e s => exact hE s h
  | hung s => exact h
  | fault f => trivial
  | refused q => trivial

@[simp] theorem txnOf_eventOf (x : Txn) (a : Answer) : txnOf (eventOf x a) = some x := by cases x <;> rfl

/-- A transaction that the phase emits leaves the position and appends its event. -/
theorem transact_placed {x : Txn} {s : State} (hx : emittedIn s.cfg s.phase x = true) : (transact x s).Placed
    (fun t => SamePosition s t ∧ ∃ rs, t.trace = s.trace ++ [eventOf x (outcomeOf x (.ok rs))])
    (fun t => SamePosition s t ∧ ∃ k, t.trace = s.trace ++ [eventOf x (.err k)]) := by
  have same : SamePosition s s.mcuActs.dropFate := ⟨rfl, rfl, rfl, rfl, rfl⟩
  have concluded (o : Answer) (g : Target) : (s.mcuActs.dropFate.conclude x (outcomeOf x o) g).Placed
      (fun t => SamePosition s t ∧ ∃ rs, t.trace = s.trace ++ [eventOf x (outcomeOf x (.ok rs))])
      (fun t => SamePosition s t ∧ ∃ k, t.trace = s.trace ++ [eventOf x (.err k)]) := by
    rcases State.conclude_cases s.mcuActs.dropFate x (outcomeOf x o) g with ⟨rs, ok, e⟩ | ⟨k, err, e⟩ | ⟨hang, e⟩ <;> rw [e]
    · obtain ⟨rs', rfl⟩ := outcomeOf_eq_ok ok
      exact ⟨⟨rfl, rfl, rfl, rfl, rfl⟩, rs', rfl⟩
    · rw [err]
      exact ⟨⟨rfl, rfl, rfl, rfl, rfl⟩, k, rfl⟩
    · rw [hang]
      exact ⟨s.trace, eventOf x .hang, x, rfl, answerOf_eventOf .., txnOf_eventOf .., hx⟩
  rw [transact_eq]
  unfold transactAs
  split
  · exact concluded _ _
  · split
    · exact concluded _ _
    · trivial
  · split
    · exact concluded _ _
    · trivial

/-! Programs that stay at one phase. -/

/-- From `s` to `t` the position is kept, and only transactions that the phase emits are issued. -/
structure StaysAt (s t : State) : Prop extends SamePosition s t where
  events : ∃ evs, t.trace = s.trace ++ evs ∧ ∀ e ∈ evs, ∀ x, txnOf e = some x → emittedIn s.cfg s.phase x = true

theorem StaysAt.silent {s t : State} (h : SamePosition s t) (ht : t.trace = s.trace) : StaysAt s t :=
  ⟨h, [], by simpa using ht, by simp⟩

theorem StaysAt.trans {s t u : State} (h : StaysAt s t) (h' : StaysAt t u) : StaysAt s u := by
  obtain ⟨evs, ht, hevs⟩ := h.events
  obtain ⟨evs', ht', hevs'⟩ := h'.events
  rw [h.phase, h.cfg] at hevs'
  exact ⟨h.toSamePosition.trans h'.toSamePosition, evs ++ evs', by rw [ht', ht, List.append_assoc],
    fun e he => (List.mem_append.1 he).elim (hevs e) (hevs' e)⟩

theorem StaysAt.isPrefix {s t : State} (h : StaysAt s t) : s.trace <+: t.trace := by
  obtain ⟨evs, ht, -⟩ := h.events
  exact ⟨evs, ht.symm⟩

theorem StaysAt.of_event {s t : State} {x : Txn} {a : Answer} (h : SamePosition s t) (ht : t.trace = s.trace ++ [eventOf x a])
    (hx : emittedIn s.cfg s.phase x = true) : StaysAt s t :=
  ⟨h, _, ht, fun e he y hy => by
    obtain rfl := List.mem_singleton.1 he
    rw [txnOf_eventOf] at hy
    cases hy
    exact hx⟩

theorem sleep_staysAt (ms : Nat) (s : State) : StaysAt s (sleep ms s) :=
  ⟨⟨rfl, rfl, rfl, rfl, rfl⟩, [.d ms], rfl, fun e he x hx => by
    obtain rfl := List.mem_singleton.1 he
    cases hx⟩

/-- Every transaction of the program is one that the phase `ph` emits, and the program does not move the sequencer. -/
def Prog.Stays {α : Type} (c : Params) (ph : Phase) : Prog α → Prop
  | .ret _ => True
  | .throw _ => True
  | .fault _ => True
  | .bus x r => emittedIn c ph x = true ∧ ∀ o, (r o).Stays c ph
  | .sleep _ r => r.Stays c ph
  | .get r => ∀ s, s.cfg = c → (r s).Stays c ph
  | .set f r => (∀ s, SamePosition s (f s) ∧ (f s).trace = s.trace) ∧ r.Stays c ph

/-- Whatever was done at the phase before comes first. -/
theorem Res.Placed.after_stays {α : Type} {s t : State} {r : Res α} (h : StaysAt s t) (hr : r.Placed (StaysAt t) (StaysAt t)) :
    r.Placed (StaysAt s) (StaysAt s) := hr.mono (fun _ => h.trans) fun _ => h.trans

theorem Prog.Stays.run {α : Type} {p : Prog α} {s : State} (hp : p.Stays s.cfg s.phase) :
    (p.run s).Placed (StaysAt s) (StaysAt s) := by
  have here (s : State) : StaysAt s s := .silent (.refl s) rfl
  induction p generalizing s with
  | ret a => exact here s
  | throw e => exact here s
  | fault f => trivial
  | bus x r ih =>
    obtain ⟨hx, hr⟩ := hp
    have rest {o : Except Err (List Byte)} {t : State} (ht : StaysAt s t) : ((r o).run t).Placed (StaysAt s) (StaysAt s) :=
      .after_stays ht (ih o (by rw [ht.cfg, ht.phase]; exact hr o))
    have placed := transact_placed hx
    rw [Prog.run_bus]
    cases e : transact x s <;> rw [e] at placed
    case ok rs t =>
      obtain ⟨same, _, ht⟩ := placed
      exact rest (.of_event same ht hx)
    case raised er t =>
      obtain ⟨same, _, ht⟩ := placed
      exact rest (.of_event same ht hx)
    case hung t => exact placed
    all_goals trivial
  | sleep ms r ih => exact .after_stays (sleep_staysAt ms s) (ih (by exact hp))
  | get r ih => exact ih s (hp s rfl)
  | set f r ih =>
    obtain ⟨hf, hr⟩ := hp
    obtain ⟨same, ht⟩ := hf s
    exact .after_stays (.silent same ht) (ih (by rw [same.cfg, same.phase]; exact hr))

namespace Prog.Stays

variable {α β : Type} {c : Params} {ph : Phase}

theorem bind {p : Prog α} {k : α → Prog β} (hp : p.Stays c ph) (hk : ∀ a, (k a).Stays c ph) : (p.bind k).Stays c ph := by
  induction p with
  | ret a => exact hk a
  | throw e => trivial
  | fault f => trivial
  | bus x r ih => exact ⟨hp.1, fun o => ih o (hp.2 o)⟩
  | sleep ms r ih => exact ih hp
  | get r ih => exact fun s hs => ih s (hp s hs)
  | set f r ih => exact ⟨hp.1, ih hp.2⟩

theorem ite {q : Prop} [Decidable q] {p p' : Prog α} (hp : p.Stays c ph) (hp' : p'.Stays c ph) :
    (if q then p else p').Stays c ph := by
  split
  · exact hp
  · exact hp'

theorem ret (a : α) : (Prog.ret a).Stays c ph := trivial

theorem throw (e : Err) : (Prog.throw e : Prog α).Stays c ph := trivial

theorem bus {x : Txn} (hx : emittedIn c ph x = true) : (Machine.bus x).Stays c ph := ⟨hx, fun o => by cases o <;> trivial⟩

theorem delay (ms : Nat) : (Machine.delay ms).Stays c ph := trivial

theorem queryDebugEnabled (hx : emittedIn c ph txDbgProbe = true) : Machine.queryDebugEnabled.Stays c ph :=
  ⟨hx, fun o => by dsimp only; split <;> trivial⟩

/-- Debug mode is switched where the phase emits the probe and the mode's frame. -/
theorem setDebugEnabled {on force : Bool} (hprobe : emittedIn c ph txDbgProbe = true) (hmode : emittedIn c ph (txDebug on c) = true) :
    (Machine.setDebugEnabled on force).Stays c ph := by
  have write : (Prog.get fun s => if !on && s.haltedFlag then .throw (.invalidState .disableWhileHalted)
      else (Machine.delay tMode).bind fun _ => (Machine.bus (txDebug on s.cfg)).bind fun _ => Machine.delay tMode).Stays c ph :=
    fun s hs => ite (throw _) ((delay _).bind fun _ => (bus (hs ▸ hmode)).bind fun _ => delay _)
  exact ite write ((queryDebugEnabled hprobe).bind fun _ => ite (ret _) write)

theorem settleUnlessHalt (halt : Bool) : (Machine.settleUnlessHalt halt).Stays c ph := ite (ret _) (delay _)

/-- Every transaction of a transfer is one of the phase Transfer (R138 to R152). -/
theorem transfer (p : Plan) (i j : Nat) : (p.transfer i).Stays c (.transfer j) := by
  have push (b : Byte) : (assign fun s => s.push b).Stays c (.transfer j) :=
    ⟨fun _ => ⟨⟨rfl, rfl, rfl, rfl, rfl⟩, rfl⟩, trivial⟩
  have data : ((Machine.bus txDbgData).bind fun rs => .ret (rs.headD 0)).Stays c (.transfer j) := (bus rfl).bind fun _ => trivial
  unfold Plan.transfer readXfer writeXfer
  cases p.space with
  | isp => exact ite ((bus rfl).bind fun _ => ret _) (((bus rfl).bind fun _ => (bus rfl).bind fun _ => ret _).bind push)
  | xdata =>
    exact ite ((bus rfl).bind fun _ => settleUnlessHalt _)
      (((bus rfl).bind fun _ => (settleUnlessHalt _).bind fun _ => data).bind push)
  | eeprom =>
    exact ite ((bus rfl).bind fun _ => (delay _).bind fun _ => settleUnlessHalt _)
      (((bus rfl).bind fun _ => (delay _).bind fun _ => (settleUnlessHalt _).bind fun _ => data).bind push)

end Prog.Stays

/-- Halt control at the phase that emits its frame: the frame and its delay, or the frame that failed (R126). -/
theorem haltCtl_placed {on : Bool} {s : State} (hx : emittedIn s.cfg s.phase (txHalt on) = true) : ((haltCtl on).run s).Placed
    (fun t => SamePosition s t ∧ t.trace = s.trace ++ [wOk .dbg [0x80, if on then 0x01 else 0x00], .d 100])
    (fun t => SamePosition s t ∧ ∃ k, t.trace = s.trace ++ [.w .dbg [0x80, if on then 0x01 else 0x00] (.err k)]) := by
  have placed := transact_placed hx
  rw [haltCtl_run]
  cases e : transact (txHalt on) s <;> rw [e] at placed
  case ok rs t =>
    obtain ⟨same, _, ht⟩ := placed
    refine ⟨same.trans ⟨rfl, rfl, rfl, rfl, rfl⟩, ?_⟩
    change t.trace ++ [_] = _
    rw [ht, List.append_assoc]
    rfl
  all_goals exact placed

/-! The phases of a range request, one after the other (R133), and the frames of the bracket in the trace. -/

/-- From `s` to `t` no halt frame has succeeded. -/
def NotHalted (s t : State) : Prop := ∃ evs, t.trace = s.trace ++ evs ∧ wOk .dbg [0x80, 0x01] ∉ evs

/-- From `s` to `t` a halt frame has succeeded. -/
def Halted (s t : State) : Prop := ∃ evs, t.trace = s.trace ++ evs ∧ wOk .dbg [0x80, 0x01] ∈ evs

/-- From `s` to `t` a halt frame has succeeded and a run frame has followed it. -/
def HaltedThenRun (s t : State) : Prop :=
  ∃ pre post a, t.trace = s.trace ++ (pre ++ .w .dbg [0x80, 0x00] a :: post) ∧ wOk .dbg [0x80, 0x01] ∈ pre

theorem Halted.of_isPrefix {s t u : State} (h : Halted s t) (hu : t.trace <+: u.trace) : Halted s u := by
  obtain ⟨evs, ht, halt⟩ := h
  obtain ⟨evs', hu⟩ := hu
  exact ⟨evs ++ evs', by rw [← hu, ht, List.append_assoc], List.mem_append_left _ halt⟩

theorem HaltedThenRun.of_isPrefix {s t u : State} (h : HaltedThenRun s t) (hu : t.trace <+: u.trace) : HaltedThenRun s u := by
  obtain ⟨pre, post, a, ht, halt⟩ := h
  obtain ⟨evs, hu⟩ := hu
  exact ⟨pre, post ++ evs, a, by rw [← hu, ht]; simp, halt⟩

theorem Halted.run {s t u : State} {a : Answer} {evs : List Event} (h : Halted s t)
    (hu : u.trace = t.trace ++ .w .dbg [0x80, 0x00] a :: evs) : HaltedThenRun s u := by
  obtain ⟨pre, ht, halt⟩ := h
  exact ⟨pre, evs, a, by rw [hu, ht, List.append_assoc], halt⟩

theorem NotHalted.trans {s t u : State} (h : NotHalted s t) (h' : NotHalted t u) : NotHalted s u := by
  obtain ⟨evs, ht, unhalted⟩ := h
  obtain ⟨evs', hu, unhalted'⟩ := h'
  exact ⟨evs ++ evs', by rw [hu, ht, List.append_assoc], fun h => (List.mem_append.1 h).elim unhalted unhalted'⟩

/-- At a phase other than HaltOpen no halt frame is issued. -/
theorem StaysAt.notHalted {s t : State} (h : StaysAt s t) (hph : emittedIn s.cfg s.phase (.w .dbg [0x80, 0x01]) = false) :
    NotHalted s t := by
  obtain ⟨evs, ht, hevs⟩ := h.events
  exact ⟨evs, ht, fun halt => Bool.noConfusion ((hevs _ halt _ rfl).symm.trans hph)⟩

/-- Where a request is when its bracket, if it has one, is closed (R133). -/
def tailPhase (s : State) : Phase := if s.autoTaken then .autoDisable else .respond

@[simp] theorem tailPhase_move (p : Plan) (b : Bool) (s : State) : tailPhase (p.move b s) = tailPhase s := rfl

/-! The rows of the table, on the facts of a state. -/

section table
variable (s : State) (bracket : Bool) (n i : Nat)

@[simp] theorem nextPhase_idle : nextPhase (s.facts bracket n) true .idle = .modeCheck := rfl

@[simp] theorem nextPhase_modeCheck : nextPhase (s.facts bracket n) true .modeCheck =
    if s.autoTaken then .autoEnable else .validate := rfl

@[simp] theorem nextPhase_autoEnable : nextPhase (s.facts bracket n) true .autoEnable = .validate := rfl

@[simp] theorem nextPhase_validate : nextPhase (s.facts bracket n) true .validate =
    if bracket then .haltOpen else if 0 < n then .transfer 0 else tailPhase s := rfl

@[simp] theorem nextPhase_haltOpen : nextPhase (s.facts bracket n) true .haltOpen =
    if 0 < n then .transfer 0 else .haltClose := rfl

@[simp] theorem nextPhase_transfer : nextPhase (s.facts bracket n) true (.transfer i) =
    if i + 1 < n then .transfer (i + 1) else if s.bracketOpen then .haltClose else tailPhase s := rfl

@[simp] theorem nextPhase_transfer_raised : nextPhase (s.facts bracket n) false (.transfer i) =
    if s.bracketOpen then .haltClose else .respond := rfl

@[simp] theorem nextPhase_haltClose : nextPhase (s.facts bracket n) true .haltClose =
    if s.pendingError.isSome then .respond else tailPhase s := rfl

end table

/-- From `s`, at ModeCheck, to `t`: the gate is passed and Validate comes next (R133). -/
structure Gated (s t : State) : Prop where
  next : (t.phase = .modeCheck ∧ t.autoTaken = false) ∨ t.phase = .autoEnable
  bracketOpen : t.bracketOpen = s.bracketOpen
  pendingError : t.pendingError = s.pendingError
  notHalted : NotHalted s t

/-- A guard that stays at a phase of the gate passes it, or raises with no halt frame issued. -/
theorem Prog.Stays.gated {q : Prog Unit} {s u : State} (hq : q.Stays u.cfg u.phase)
    (next : (u.phase = .modeCheck ∧ u.autoTaken = false) ∨ u.phase = .autoEnable) (trace : u.trace = s.trace)
    (bracketOpen : u.bracketOpen = s.bracketOpen) (pendingError : u.pendingError = s.pendingError) :
    (q.run u).Placed (Gated s) (NotHalted s) := by
  have unlisted : emittedIn u.cfg u.phase (.w .dbg [0x80, 0x01]) = false := by
    rcases next with ⟨h, -⟩ | h <;> rw [h] <;> simp [emittedIn]
  have unhalted (t : State) (h : StaysAt u t) : NotHalted s t := by
    obtain ⟨evs, ht, halt⟩ := h.notHalted unlisted
    exact ⟨evs, trace ▸ ht, halt⟩
  refine hq.run.mono (fun t h => ⟨?_, h.bracketOpen.trans bracketOpen, h.pendingError.trans pendingError, unhalted t h⟩) unhalted
  rw [h.phase, h.autoTaken]
  exact next

/-- The guard of a request asks a query and goes on or raises. -/
theorem Prog.Stays.guard {c : Params} {ph : Phase} {q : Prog Bool} (hq : q.Stays c ph) (e : Err) :
    (q.bind fun b => if b then .ret () else .throw e).Stays c ph := hq.bind fun _ => .ite (.ret _) (.throw _)

/-- The debug guard, at ModeCheck and, under the policy, at AutoEnable (R122). -/
theorem debugGuardEnter_placed {s : State} (hph : s.phase = .modeCheck) :
    (debugGuardEnter.run s).Placed (Gated s) (NotHalted s) := by
  unfold debugGuardEnter
  rw [Prog.run_bind, assign_run, Res.bind_ok, Prog.run_get]
  have here : s.latchAuto.phase = .modeCheck := hph
  cases auto : s.latchAuto.autoTaken with
  | true =>
    have enable : (s.latchAuto.move false 0 true).phase = .autoEnable := by
      change nextPhase _ true s.latchAuto.phase = _
      rw [here, nextPhase_modeCheck, if_pos auto]
    rw [if_pos rfl, Prog.run_bind, assign_run, Res.bind_ok]
    have mode (c : Params) : emittedIn c .autoEnable (txDebug true c) = true := by simp [emittedIn, txDebug, txDbgEn]
    exact Prog.Stays.gated (by rw [enable]; exact .setDebugEnabled rfl (mode _)) (.inr enable) rfl rfl rfl
  | false =>
    rw [if_neg (by simp)]
    exact Prog.Stays.gated (by rw [here]; exact .guard (.queryDebugEnabled rfl) _) (.inl ⟨here, auto⟩) rfl rfl rfl

/-- The gate of every space (R121). -/
theorem Plan.gate_placed (p : Plan) {s : State} (hph : s.phase = .modeCheck) (hauto : s.autoTaken = false) :
    (p.gate.run s).Placed (Gated s) (NotHalted s) := by
  unfold Plan.gate
  split
  · have query : queryIspEnabled.Stays s.cfg .modeCheck := (Prog.Stays.bus rfl).bind fun _ => .ret _
    exact Prog.Stays.gated (by rw [hph]; exact query.guard _) (.inl ⟨hph, hauto⟩) rfl rfl rfl
  · exact debugGuardEnter_placed hph
  · exact debugGuardEnter_placed hph

/-- The checks change nothing, whether they pass or raise. -/
theorem Plan.check_placed (p : Plan) (s : State) : (p.check.run s).Placed (· = s) (· = s) := by
  rw [Plan.check_run]
  split
  · rfl
  · split <;> rfl

/-- The transfers are at index `i` (R28), or done where there are no more. -/
structure Plan.At (p : Plan) (i : Nat) (s : State) : Prop where
  phase : s.phase = if i < p.count then .transfer i else if p.bracket then .haltClose else tailPhase s
  bracketOpen : s.bracketOpen = p.bracket
  pendingError : s.pendingError = none

/-- The open of the bracket, where it is asked for: the first transfer comes next, or the halt frame has failed (R128). -/
theorem Plan.haltOpen_placed (p : Plan) {s₀ s : State}
    (hph : s.phase = if p.bracket then .haltOpen else if 0 < p.count then .transfer 0 else tailPhase s)
    (hopen : s.bracketOpen = false) (hpend : s.pendingError = none) (unhalted : NotHalted s₀ s) :
    (p.haltOpen.run s).Placed (fun t => p.At 0 t ∧ (p.bracket = true → Halted s₀ t)) (NotHalted s₀) := by
  rw [Plan.haltOpen_run]
  cases bracket : p.bracket with
  | false =>
    rw [bracket] at hph
    exact ⟨⟨by rw [hph, bracket]; rfl, hopen.trans bracket.symm, hpend⟩, nofun⟩
  | true =>
    have here : s.phase = .haltOpen := by rw [hph, if_pos bracket]
    rw [if_pos rfl]
    refine ((haltCtl_placed (on := true) (by rw [here]; rfl)).mono (fun _ h => h) ?_).bind fun _ t ⟨same, ht⟩ => ?_
    · rintro t ⟨-, k, ht⟩
      exact unhalted.trans ⟨_, ht, by simp⟩
    · have next : p.At 0 (p.move true t.markOpen) := by
        refine ⟨?_, bracket.symm, same.pendingError.trans hpend⟩
        simp [State.markOpen, same.phase, here, bracket]
      obtain ⟨evs, hs, -⟩ := unhalted
      refine ⟨next, fun _ => ⟨evs ++ [wOk .dbg [0x80, 0x01], .d 100], ?_, by simp⟩⟩
      change t.trace = _
      rw [ht, hs, List.append_assoc]
      rfl

/-- What stands before the transfers (R133). -/
theorem Plan.opening_placed (p : Plan) {s : State} (hph : s.phase = .idle) (hauto : s.autoTaken = false) (hopen : s.bracketOpen = false)
    (hpend : s.pendingError = none) :
    (p.opening.run s).Placed (fun t => p.At 0 t ∧ (p.bracket = true → Halted s t)) (NotHalted s) := by
  unfold Plan.opening
  simp only [Prog.run_bind, Plan.advance_run, Res.bind_ok]
  refine (p.gate_placed (s := p.move true s) (by simp [hph]) hauto).bind fun _ u gated => ?_
  have unhalted : NotHalted s u := gated.notHalted
  have validate : (p.move true u).phase = .validate := by
    rw [Plan.move_phase]
    rcases gated.next with ⟨h, auto⟩ | h <;> rw [h]
    · simp [auto]
    · simp
  refine ((p.check_placed _).mono (fun _ h => h) fun _ h => h ▸ unhalted).bind fun _ v hv => ?_
  subst hv
  exact p.haltOpen_placed (by rw [Plan.move_phase, validate]; simp) (gated.bracketOpen.trans hopen) (gated.pendingError.trans hpend)
    unhalted

/-- The transfers, each at its index. -/
theorem Plan.transfers_placed (p : Plan) (k i : Nat) {s : State} (hn : i + k = p.count) (h : p.At i s) :
    ((p.transfers k i).run s).Placed (fun t => p.At p.count t ∧ s.trace <+: t.trace)
      (fun t => (∃ j, t.phase = .transfer j) ∧ t.bracketOpen = p.bracket ∧ s.trace <+: t.trace) := by
  induction k generalizing i s with
  | zero =>
    obtain rfl : i = p.count := hn
    exact ⟨h, ⟨[], List.append_nil _⟩⟩
  | succ k ih =>
    have here : s.phase = .transfer i := by rw [h.phase, if_pos (by omega)]
    rw [Plan.transfers_succ_run]
    have moved : ((p.transfer i).run s).Placed (StaysAt s) (StaysAt s) := Prog.Stays.run (by rw [here]; exact .transfer p i i)
    refine (moved.mono (fun _ h => h) fun t ht => ?_).bind fun _ t ht => ?_
    · exact ⟨⟨i, ht.phase.trans here⟩, ht.bracketOpen.trans h.bracketOpen, ht.isPrefix⟩
    · have next : p.At (i + 1) (p.move true t) := by
        refine ⟨?_, ht.bracketOpen.trans h.bracketOpen, ht.pendingError.trans h.pendingError⟩
        rw [Plan.move_phase, ht.phase, here]
        simp [ht.bracketOpen, h.bracketOpen]
      exact (ih (i + 1) (by omega) next).mono (fun u ⟨done, more⟩ => ⟨done, ht.isPrefix.trans more⟩)
        fun u ⟨ph, bracket, more⟩ => ⟨ph, bracket, ht.isPrefix.trans more⟩

/-- The close of a bracket, at HaltClose: the run frame is issued (R129). -/
theorem Plan.haltClose_placed (p : Plan) {s₀ s : State} (hph : s.phase = .haltClose) (halted : Halted s₀ s) :
    (p.haltClose.run s).Placed (fun t => t.phase = tailPhase t ∧ HaltedThenRun s₀ t) (HaltedThenRun s₀) := by
  rw [Plan.haltClose_run]
  have here : s.markClosed.phase = .haltClose := hph
  refine ((haltCtl_placed (on := false) (by rw [here]; rfl)).mono (fun _ h => h) ?_).bind fun _ t ⟨same, ht⟩ => ?_
  · rintro t ⟨-, k, ht⟩
    exact halted.run ht
  · have run : HaltedThenRun s₀ (p.move true t) := halted.run ht
    cases pend : t.pendingError with
    | some e => exact run
    | none =>
      refine ⟨?_, run⟩
      rw [Plan.move_phase, same.phase, here]
      simp [pend]

/-- The `finally` of the transfers: an open bracket is closed, whether they complete or raise (R129). -/
theorem Plan.closed_placed (p : Plan) {s₀ s : State} {r : Res Unit} (halted : p.bracket = true → Halted s₀ s)
    (hr : r.Placed (fun t => p.At p.count t ∧ s.trace <+: t.trace)
      (fun t => (∃ j, t.phase = .transfer j) ∧ t.bracketOpen = p.bracket ∧ s.trace <+: t.trace)) :
    (p.closed r).Placed (fun t => t.phase = tailPhase t ∧ (p.bracket = true → HaltedThenRun s₀ t))
      (fun t => p.bracket = true → HaltedThenRun s₀ t) := by
  have closed {t : State} (bracket : p.bracket = true) (phase : t.phase = .haltClose) (more : s.trace <+: t.trace) :
      (p.haltClose.run t).Placed (fun t => t.phase = tailPhase t ∧ (p.bracket = true → HaltedThenRun s₀ t))
        (fun t => p.bracket = true → HaltedThenRun s₀ t) :=
    (p.haltClose_placed phase ((halted bracket).of_isPrefix more)).mono (fun _ ⟨ph, run⟩ => ⟨ph, fun _ => run⟩)
      fun _ run _ => run
  cases r with
  | ok a t =>
    obtain ⟨done, more⟩ := hr
    have phase := done.phase
    rw [if_neg (lt_irrefl _)] at phase
    rw [Plan.closed, done.bracketOpen]
    split
    · exact closed ‹_› (by rw [phase, if_pos ‹_›]) more
    · exact ⟨by rw [phase, if_neg ‹_›], fun bracket => absurd bracket ‹_›⟩
  | raised e t =>
    obtain ⟨⟨j, phase⟩, isOpen, more⟩ := hr
    rw [Plan.closed, isOpen]
    split
    · refine closed ‹_› ?_ more
      rw [Plan.move_phase, show (t.pend e).phase = .transfer j from phase]
      simp [State.pend, isOpen, ‹p.bracket = true›]
    · exact fun bracket => absurd bracket ‹_›
  | hung t => exact hr
  | fault f => trivial
  | refused q => trivial

/-- The guard exit, at AutoDisable where the policy was taken (R122). -/
theorem Plan.exit_placed (p : Plan) {s : State} (hph : s.phase = tailPhase s) :
    (p.exit.run s).Placed (fun t => s.trace <+: t.trace) (fun t => s.trace <+: t.trace) := by
  have debug : (debugGuardExit.run s).Placed (fun t => s.trace <+: t.trace) (fun t => s.trace <+: t.trace) := by
    rw [debugGuardExit_run]
    cases auto : s.autoTaken with
    | false => exact ⟨[], List.append_nil _⟩
    | true =>
      have disable : s.phase = .autoDisable := by rw [hph, tailPhase, auto]; rfl
      have stays : (setDebugEnabled false false).Stays s.cfg s.phase := by
        rw [disable]
        exact .setDebugEnabled rfl (by simp [emittedIn, txDebug, txDbgDis])
      exact stays.run.mono (fun t h => h.isPrefix) fun t h => h.isPrefix
  unfold Plan.exit
  split
  · exact ⟨[], List.append_nil _⟩
  · exact debug
  · exact debug

/-- A whole range request: a transaction that hangs does so at its phase, and a bracketed request that comes to its end has had no halt
frame succeed, or a run frame after it. -/
theorem Plan.program_placed (p : Plan) {s : State} (hph : s.phase = .idle) (hauto : s.autoTaken = false) (hopen : s.bracketOpen = false)
    (hpend : s.pendingError = none) :
    (p.program.run s).Placed (fun t => p.bracket = true → NotHalted s t ∨ HaltedThenRun s t)
      (fun t => p.bracket = true → NotHalted s t ∨ HaltedThenRun s t) := by
  rw [Plan.program_opening]
  have opening := p.opening_placed hph hauto hopen hpend
  refine (opening.mono (fun _ h => h) fun t unhalted _ => .inl unhalted).bind fun _ u ⟨start, halted⟩ => ?_
  refine ((p.closed_placed halted (p.transfers_placed p.count 0 (by simp) start)).mono (fun _ h => h)
    fun t run bracket => .inr (run bracket)).bind fun _ v ⟨phase, run⟩ => ?_
  exact ((p.exit_placed phase).mono (fun _ h => h) fun t more bracket => .inr ((run bracket).of_isPrefix more)).bind
    fun _ t more bracket => .inr ((run bracket).of_isPrefix more)

/-- What a range request that ends has run: the program of its plan, to its end or to a hang (R170). -/
theorem exec_range_cases {i : Instr} {s t : State} (hi : rangeAsked i ≠ none) (hx : exec i s = .next t) :
    ∃ q, ∃ p : Plan, p.bracket = bracketed i ∧ ((∃ r u, p.program.run (s.accept q) = .ok r u ∧ t = u.respond (.ok r)) ∨
      (∃ e u, p.program.run (s.accept q) = .raised e u ∧ t = u.takeError e) ∨ p.program.run (s.accept q) = .hung t) := by
  obtain ⟨⟨sp, a, n, w⟩, asked⟩ := Option.ne_none_iff_exists'.1 hi
  obtain ⟨q, hq, hp, bracket, -⟩ := plan_of_asked asked
  have ready : s.life = .ready := by
    by_contra busy
    rw [exec_request hq, if_neg busy] at hx
    cases hx
  obtain ⟨p, plan⟩ : ∃ p, q.plan = some p := ⟨_, hp⟩
  have same : p.bracket = bracketed i := by
    rw [bracket]
    cases plan.symm.trans hp
    rfl
  refine ⟨q, p, same, ?_⟩
  rw [exec_range hq plan s ready] at hx
  generalize Prog.run _ _ = r at hx ⊢
  cases r with
  | ok r u => cases hx; exact .inl ⟨r, u, rfl, rfl⟩
  | raised e u => cases hx; exact .inr (.inl ⟨e, u, rfl, rfl⟩)
  | hung u => cases hx; exact .inr (.inr rfl)
  | fault f => cases hx
  | refused f => cases hx

/-- Settles O14: every transaction is issued at the phase that emits it (`Plan.program_placed`), and only a hang leaves the block
Busy. -/
theorem hangKeepsThePhase : Obligations.HangKeepsThePhase := by
  unfold Obligations.HangKeepsThePhase
  intro i s t hi hx hl
  obtain ⟨q, p, -, ⟨r, u, -, rfl⟩ | ⟨e, u, -, rfl⟩ | run⟩ := exec_range_cases hi hx
  · cases hl
  · cases hl
  · have placed := p.program_placed (s := s.accept q) rfl rfl rfl rfl
    have recorded := (Prog.WritesSilently.program p).run (s.accept q)
    rw [run] at placed recorded
    obtain ⟨_, _, records, -⟩ := recorded
    have cfg : t.cfg = s.cfg := records.cfg
    exact cfg ▸ placed

/-- A request that uses the bracket is a range request. -/
theorem rangeAsked_of_bracketed {i : Instr} (h : bracketed i = true) : rangeAsked i ≠ none := by
  cases i <;> cases h <;> exact Option.some_ne_none _

/-- Settles O23: a halt frame that succeeds opens the bracket, and the close of an open bracket issues the run frame
(`Plan.program_placed`). -/
theorem anOpenBracketIsClosed : Obligations.AnOpenBracketIsClosed := by
  unfold Obligations.AnOpenBracketIsClosed
  intro i s t evs _ hb hx ht halt hl
  obtain ⟨q, p, bracket, ended⟩ := exec_range_cases (rangeAsked_of_bracketed hb) hx
  have placed := p.program_placed (s := s.accept q) rfl rfl rfl rfl
  have closed (u : State) (hu : u.trace = t.trace) (h : NotHalted (s.accept q) u ∨ HaltedThenRun (s.accept q) u) :
      ∃ pre post a, evs = pre ++ .w .dbg [0x80, 0x00] a :: post ∧ wOk .dbg [0x80, 0x01] ∈ pre := by
    have same {evs' : List Event} (h : u.trace = s.trace ++ evs') : evs = evs' :=
      List.append_cancel_left ((ht.symm.trans hu.symm).trans h)
    rcases h with ⟨evs', h, unhalted⟩ | ⟨pre, post, a, h, pre'⟩
    · exact absurd (same h ▸ halt) unhalted
    · exact ⟨pre, post, a, same h, pre'⟩
  rcases ended with ⟨r, u, run, rfl⟩ | ⟨e, u, run, rfl⟩ | run
  · rw [run] at placed
    exact closed u rfl (placed (bracket.trans hb))
  · rw [run] at placed
    exact closed u rfl (placed (bracket.trans hb))
  · have busy := busy_closed.program p (s.accept q)
    rw [run] at busy
    cases (busy rfl).symm.trans hl

end Sys2Proof.Machine
end

section
/-! PROOF. The ISP requests (43_isp_access.md): the reset, the reads and the writes, where the transport answers as the reference device
and the MCU has nothing to write. -/

namespace Sys2Proof.Machine

/-! The reset (R141). -/

theorem exec_ispReset_run {s : State} (hl : s.life = .ready) :
    exec .ispReset s = (ispReset.run (s.accept { op := .ispReset })).finish := by
  rw [exec_request rfl, if_pos hl]
  rfl

/-- Settles O33: neither write asks the register first, and the second is sent only after the first has succeeded
(`ispReset_run`). -/
theorem ispResetForcesThenResets : Obligations.IspResetForcesThenResets := by
  unfold Obligations.IspResetForcesThenResets
  intro s
  refine ⟨fun hs => ?device, fun k fs hl ho hm => ?failure⟩
  case device =>
    obtain ⟨hl, ho, hm⟩ := hs
    have forced := transact_answered (x := txIspCtrl true) (s := s.accept { op := .ispReset }) ho hm rfl rfl
    generalize hu : State.after _ _ _ = u at forced
    have reset := transact_answered (x := txIspReset) (s := u) (by rw [← hu]; exact ho) (by rw [← hu]; simp [hm]) rfl rfl
    refine ⟨u.target.unsettle.redraw, ?_⟩
    rw [exec_ispReset_run hl, ispReset_run, setIspEnabled_run, if_pos rfl, forced, Res.bind_ok, Res.bind_ok, reset, Res.bind_ok,
      ← hu, State.after_after]
    rfl
  case failure =>
    have failed := transact_overridden_err (x := txIspCtrl true) (s := s.accept { op := .ispReset }) ho (k := k) rfl
    rw [State.turned_of_mcu_nil (s := s.accept _) hm] at failed
    rw [exec_ispReset_run hl, ispReset_run, setIspEnabled_run, if_pos rfl, failed]
    rfl

/-! The loop (R125) where the MCU has nothing to write. -/

/-- As `transfers_quiet`, but a transfer may do anything to the target: the reset command among the writes redraws `mcuHalted` too
(R67). -/
theorem transfers_served (p : Plan) (J : Nat → Target → Prop) (out : Nat → List Byte) (evs : Nat → List Event) {n : Nat}
    (one : ∀ j s, j < n → s.oracle = [] → s.mcu = [] → J j s.target →
      ∃ g, (p.transfer j).run s = .ok () ({ s with result := s.result ++ out j }.after (evs j) g) ∧ J (j + 1) g) :
    ∀ k i s, i + k ≤ n → s.oracle = [] → s.mcu = [] → J i s.target →
      ∃ ph g, (p.transfers k i).run s = .ok () ({ s with phase := ph, result := s.result ++ (List.range' i k).flatMap out }.after
        ((List.range' i k).flatMap evs) g) ∧ J (i + k) g := by
  intro k
  induction k with
  | zero => exact fun i s _ _ _ hJ => ⟨s.phase, s.target, by simp [State.after], hJ⟩
  | succ k ih =>
    intro i s hn ho hm hJ
    obtain ⟨g, first, hg⟩ := one i s (by omega) ho hm hJ
    generalize hu : State.after _ _ _ = u at first
    obtain ⟨ph, g', rest, hg'⟩ := ih (i + 1) (p.move true u) (by omega) (by rw [← hu]; exact ho) (by rw [← hu]; simp [hm])
      (by rw [← hu]; exact hg)
    refine ⟨ph, g', ?_, by rwa [Nat.add_right_comm, Nat.add_assoc] at hg'⟩
    rw [Plan.transfers_succ_run, first, Res.bind_ok, rest, List.range'_succ, ← hu]
    simp [State.after, Plan.move, State.move]

/-- An ISP range request with ISP mode on whose checks pass: the query, then its transfers, with no bracket and no exit (R121, R125,
R127). -/
theorem exec_isp_range {i : Instr} {q : Latches} {p : Plan} (hq : latchesOf i = some q) (hp : q.plan = some p) (hsp : p.space = .isp)
    (hck : ∀ s, p.check.run s = .ok () s) {s : State} (hs : s.Serves) (hw : s.target.owedWrite = 0) (hon : s.target.IspOn)
    (J : Nat → Target → Prop) (hJ : J 0 { s.target with ispPtr := 0x6f }) (out : Nat → List Byte) (evs : Nat → List Event)
    (one : ∀ j s, j < p.count → s.oracle = [] → s.mcu = [] → J j s.target →
      ∃ g, (p.transfer j).run s = .ok () ({ s with result := s.result ++ out j }.after (evs j) g) ∧ J (j + 1) g) :
    ∃ g, exec i s = .next ((s.after (rOk .isp [0x6f] [s.target.peek (.isp 0x6f)] :: (List.range p.count).flatMap evs) g).answered i
      (.ok (if p.write then .void else .bytes ((List.range p.count).flatMap out)))) ∧ J p.count g := by
  obtain ⟨hl, ho, hm⟩ := hs
  have gate := Plan.gate_isp (s := s.accept q) hsp (.of_nil ho hm) hw hon
  have noBracket : p.bracket = false := by rw [Plan.bracket, hsp]; rfl
  have noExit (s : State) : p.exit.run s = .ok () s := by rw [Plan.exit, hsp]; rfl
  generalize hu : State.after _ _ _ = u at gate
  obtain ⟨ph, g, moved, hg⟩ := transfers_served p J out evs one p.count 0 (p.move true (p.move true u)) (by omega)
    (by rw [← hu]; exact ho) (by rw [← hu]; simp [hm]) (by rw [← hu]; exact hJ)
  rw [← List.range_eq_range'] at moved
  rw [Nat.zero_add] at hg
  refine ⟨g, ?_, hg⟩
  rw [exec_range hq hp s hl, Plan.program_run, gate, Res.bind_ok, hck, Res.bind_ok, Plan.haltOpen_run, noBracket, if_neg (by simp),
    Res.bind_ok, moved, ← hu]
  simp [Plan.closed, noExit, Res.finish, State.respond, State.answered, State.after, State.accept, hq, hm, Plan.move, State.move]

/-! The reads (R138). -/

/-- The plan of an ISP request that reads (R125, R156). -/
theorem plan_of_ispReads {i : Instr} {a n : Int} (h : ispReads i = some (a, n)) : ∃ q, ∃ p : Plan, latchesOf i = some q ∧
    q.plan = some p ∧ p.space = .isp ∧ p.write = false ∧ p.start = a ∧ p.length = n := by
  have asked : rangeAsked i = some (.isp, a, some n, false) := by
    cases i <;> cases h <;> rfl
  obtain ⟨q, hq, hp, -⟩ := plan_of_asked asked
  exact ⟨q, _, hq, hp, rfl, rfl, rfl, rfl⟩

/-- What read transfers leave of a target `t`: everything but the pointer, and no debug write has to settle. -/
structure IspKept (t g : Target) : Prop where
  owedWrite : g.owedWrite = 0
  bytes : g.SameBytes t
  debugMode : g.debugMode = t.debugMode
  mcuHalted : g.mcuHalted = t.mcuHalted

/-- The pointer moved (R66). -/
theorem IspKept.point {t g : Target} (h : IspKept t g) (a : Byte) : IspKept t { g with ispPtr := a } :=
  ⟨h.owedWrite, fun x => Eq.trans (by cases x <;> rfl) (h.bytes x), h.debugMode, h.mcuHalted⟩

/-- One read transfer of an ISP request, with the register of the target the transfers started from. -/
theorem IspKept.transfer {p : Plan} (hsp : p.space = .isp) (hread : p.write = false) {t : Target} {s : State} (hs : s.Quiet)
    (h : IspKept t s.target) (j : Nat) : ∃ g,
    (p.transfer j).run s = .ok () ({ s with result := s.result ++ [t.ispAt (p.addr j)] }.after
      [wOk .isp [loByte (p.addr j)], rOk .isp [] [t.ispAt (p.addr j)]] g) ∧ IspKept t g := by
  have read := hs.readIsp h.owedWrite (p.addr j)
  rw [show s.target.ispAt (p.addr j) = t.ispAt (p.addr j) from h.bytes _] at read
  refine ⟨_, ?_, h.point (loByte (p.addr j))⟩
  rw [Plan.transfer_run, hread, if_neg (by simp), readXfer, hsp]
  exact (congrArg (Res.bind · _) read).trans rfl

/-- Settles O39: a read transfer moves the pointer and changes nothing else (`IspKept.transfer`). -/
theorem ispReads_holds : Obligations.IspReads := by
  unfold Obligations.IspReads
  intro i s a n asked hs hw hon window
  obtain ⟨q, p, hq, hp, hsp, hread, rfl, rfl⟩ := plan_of_ispReads asked
  have check := Plan.check_ok (p := p) (by simp [hread]) (validate_window (by rw [hsp]; rfl) window)
  have start : IspKept s.target s.target := ⟨hw, fun _ => rfl, rfl, rfl⟩
  obtain ⟨g, run, kept⟩ := exec_isp_range hq hp hsp check hs hw hon (fun _ => IspKept s.target) (start.point 0x6f) _ _
    fun j u _ ho hm h => h.transfer hsp hread (.of_nil ho hm) j
  rw [hread, if_neg (by simp), ← List.map_eq_flatMap] at run
  exact ⟨g, run, kept.bytes, kept.debugMode, kept.mcuHalted⟩

/-! The writes (R140). -/

/-- No element of an ISP write is the reset command (R67). -/
def NoReset (a : Int) (vs : List Byte) : Prop := ∀ (k : Nat) (h : k < vs.length), ¬(a + k = 0xee ∧ vs[k] = 0x03)

/-- The address bytes of a range inside the ISP window differ. -/
theorem loByte_inj {a b : Int} (ha : 0 ≤ a ∧ a ≤ 0xff) (hb : 0 ≤ b ∧ b ≤ 0xff) (h : loByte a = loByte b) : a = b := by
  have h := congrArg BitVec.toNat h
  simp only [loByte, BitVec.toNat_ofInt] at h
  omega

/-- The events of a write, transfer by transfer. -/
theorem ispWriteEvents_eq (a : Int) (vs : List Byte) :
    ispWriteEvents a vs = (List.range vs.length).flatMap fun k : Nat => [wOk .isp [loByte (a + k), vs.getD k 0]] := by
  rw [← List.map_eq_flatMap]
  refine List.ext_getElem (by simp [ispWriteEvents]) fun k hk _ => ?_
  have hk : k < vs.length := by simpa [ispWriteEvents] using hk
  simp [ispWriteEvents, hk]

/-- One write transfer, the reset command or not: no debug write has to settle after it, and what is not the reset command stores its
byte (R66, R67). -/
theorem State.Quiet.writeIsp_stores {s : State} (h : s.Quiet) (hw : s.target.owedWrite = 0) (a : Int) (v : Byte) : ∃ g,
    (Machine.writeIsp a v).run s = .ok () (s.after [wOk .isp [loByte a, v]] g) ∧ g.owedWrite = 0 ∧
    (¬(loByte a = 0xee ∧ v = 0x03) → s.target.wf → g.wf ∧ g.Stores s.target (.isp (loByte a)) v ∧
      g.debugMode = s.target.debugMode ∧ g.mcuHalted = s.target.mcuHalted) := by
  by_cases hr : loByte a = 0xee ∧ v = 0x03
  · obtain ⟨addr, rfl⟩ := hr
    refine ⟨s.target.redraw, ?_, rfl, fun no => absurd ⟨addr, rfl⟩ no⟩
    rw [writeIsp_run, show isp8 a = 0xee from addr, h.ispWr_reset hw, addr]
    rfl
  · refine ⟨_, h.writeIsp hw a v hr, hw, fun _ hwf => ?_⟩
    obtain ⟨stores, debug, halted, -⟩ := Target.ispWritten_stores hwf (loByte a) v
    have pointed : { s.target with ispPtr := loByte a }.wf := hwf
    exact ⟨Target.poke_wf _ _ _ pointed, stores, debug, halted⟩

/-- The target after the first `j` elements of an ISP write from `t` on: where no element is the reset command they are stored. -/
structure IspWritten (t : Target) (a : Int) (vs : List Byte) (j : Nat) (g : Target) : Prop where
  owedWrite : g.owedWrite = 0
  stored : NoReset a vs → g.wf ∧ g.StoresAll t (fun k => .isp (loByte (a + k))) (vs.take j) ∧ g.debugMode = t.debugMode ∧
    g.mcuHalted = t.mcuHalted

/-- One more element. -/
theorem IspWritten.write {t : Target} {a : Int} {vs : List Byte} {j : Nat} (hwin : InWindow 0xff a vs.length) {s : State}
    (hs : s.Quiet) (h : IspWritten t a vs j s.target) (hj : j < vs.length) : ∃ g,
    (writeIsp (a + j) vs[j]).run s = .ok () (s.after [wOk .isp [loByte (a + j), vs[j]]] g) ∧ IspWritten t a vs (j + 1) g := by
  have inside {k : Nat} (hk : k < vs.length) : 0 ≤ a + k ∧ a + k ≤ 0xff := by omega
  obtain ⟨g, run, owed, stores⟩ := hs.writeIsp_stores h.owedWrite (a + j) vs[j]
  refine ⟨g, run, owed, fun noReset => ?_⟩
  obtain ⟨wf, bytes, debug, halted⟩ := h.stored noReset
  have element : ¬(loByte (a + j) = 0xee ∧ vs[j] = 0x03) := fun ⟨addr, value⟩ =>
    noReset j hj ⟨loByte_inj (inside hj) (by omega) addr, value⟩
  obtain ⟨wf', stored, debug', halted'⟩ := stores element wf
  have size : (vs.take j).length = j := by simp; omega
  refine ⟨wf', ?_, debug'.trans debug, halted'.trans halted⟩
  rw [← List.take_append_getElem hj]
  refine bytes.snoc (by rw [size]; exact stored) fun k hk same => ?_
  rw [size] at hk same
  have := loByte_inj (inside (hk.trans hj)) (inside hj) (Loc.isp.inj same)
  omega

/-- Settles O40: every element is one write, and the stored bytes grow by one with each (`IspWritten.write`). -/
theorem ispWrites : Obligations.IspWrites := by
  unfold Obligations.IspWrites
  intro s a vs hs hwf hw hon window
  obtain ⟨g, run, written⟩ := exec_isp_range (i := .ispWrite a (some vs)) rfl rfl rfl
    (Plan.check_ok (fun _ => Option.some_ne_none _) (validate_window rfl window)) hs hw hon (IspWritten s.target a vs)
    ⟨hw, fun _ => ⟨hwf, ⟨fun k hk => absurd hk (by simp), fun x _ => by cases x <;> rfl⟩, rfl, rfl⟩⟩ (fun _ => [])
    (fun j => [wOk .isp [loByte (a + j), vs.getD j 0]]) fun j u hj ho hm h => by
      have hj : j < vs.length := hj
      obtain ⟨g, run, hg⟩ := h.write window (.of_nil ho hm) hj
      rw [List.getElem_eq_getD 0] at run
      refine ⟨g, ?_, hg⟩
      rw [List.append_nil]
      exact run
  rw [ispWriteEvents_eq]
  refine ⟨g, run, fun noReset => ?_⟩
  obtain ⟨-, stored, modes⟩ := written.stored noReset
  have all : vs.take vs.length = vs := List.take_length
  exact ⟨all ▸ stored, modes⟩

end Sys2Proof.Machine
end

section
/-! PROOF. A debug range request with debug mode on and no policy, and the XDATA requests (44_xdata_access.md), where the transport
answers as the reference device and the MCU cannot write. -/

namespace Sys2Proof.Machine

/-! The parts of the range operation, with the bracket or without it (R125, R127). -/

/-- The events that open the bracket, or none. -/
def openEvents (bracket : Bool) : List Event := if bracket then [wOk .dbg [0x80, 0x01], .d 100] else []

/-- The events that close the bracket, or none. -/
def closeEvents (bracket : Bool) : List Event := if bracket then [wOk .dbg [0x80, 0x00], .d 100] else []

theorem inBracket_eq (bracket : Bool) (evs : List Event) :
    inBracket bracket evs = openEvents bracket ++ evs ++ closeEvents bracket := by
  cases bracket <;> simp [inBracket, openEvents, closeEvents]

/-- The opening where the MCU cannot write, debug mode on or the policy taken. -/
theorem Plan.opening_quiet {p : Plan} (hp : p.Debug) (hck : ∀ s, p.check.run s = .ok () s) {s : State} (h : s.Quiet)
    (hop : s.bracketOpen = false) (hs : s.target.Settled) (hd : s.target.debugMode = true ∨ s.debugAutoEnable = true)
    (hc : p.bracket = true → HaltDistinct s.cfg) : ∃ ph b g,
    p.opening.run s = .ok () (State.after
      { s with autoTaken := s.debugAutoEnable, phase := ph, haltedFlag := s.haltedFlag || p.bracket, bracketOpen := p.bracket }
      (enableEvents s.cfg s.target.debugMode b ++ openEvents p.bracket) g) ∧
    g.SameCore ((s.target.inDebug true).inHalt (s.target.mcuHalted || p.bracket)) := by
  cases bracket : p.bracket with
  | false =>
    obtain ⟨ph, b, g, run, hg⟩ := Plan.opening_plain hp h.1 hck bracket hs hd
    rw [h.turned] at hg
    refine ⟨ph, b, g, ?_, ?_⟩
    · rw [run]
      simp [State.after, openEvents, hop]
    · rw [Bool.or_false]
      exact hg
  | true =>
    obtain ⟨ph, b, g, run, hg⟩ := Plan.opening_bracket hp h.1 hck bracket hs hd (hc bracket)
    rw [h.turned] at hg
    rw [Bool.or_true, Bool.or_true]
    exact ⟨ph, b, g, run, hg⟩

/-- The close after transfers that succeed; the MCU, running again after a bracket, has nothing to write. -/
theorem Plan.closed_quiet {p : Plan} {s : State} (ho : s.oracle = []) (hpe : s.pendingError = none) (ha : s.target.Answers)
    (hb : s.bracketOpen = true → s.mcu = [] ∧ s.target.mcuHalted = true ∧ HaltDistinct s.cfg) : ∃ ph g,
    p.closed (.ok () s) = .ok () (State.after
      { s with haltedFlag := s.haltedFlag && !s.bracketOpen, bracketOpen := false, phase := ph } (closeEvents s.bracketOpen) g) ∧
    g.SameCore (s.target.inHalt (s.target.mcuHalted && !s.bracketOpen)) := by
  cases hop : s.bracketOpen with
  | false =>
    have unmarked : { s with bracketOpen := false } = s := by rw [← hop]
    refine ⟨s.phase, s.target, ?_, ?_⟩
    · rw [Plan.closed, hop, if_neg (by simp)]
      simp [State.after, closeEvents, unmarked]
    · rw [Bool.not_false, Bool.and_true]
      exact .refl _
  | true =>
    obtain ⟨hm, halted, hc⟩ := hb hop
    obtain ⟨ph, g, run, hg⟩ := Plan.closed_bracket (p := p) ho hop hpe ha halted hc
    rw [hm] at hg
    rw [Bool.not_true, Bool.and_false, Bool.and_false]
    exact ⟨ph, g, run, hg⟩

/-- A debug range request, debug mode on and no policy, where the MCU cannot write: the opening, the transfers and the close, with
no exit. -/
theorem Plan.program_debugOn {p : Plan} (hp : p.Debug) (hck : ∀ s, p.check.run s = .ok () s) {s : State} (h : s.Quiet)
    (hop : s.bracketOpen = false) (hpe : s.pendingError = none) (hres : s.result = []) (ha : s.target.Answers)
    (hpol : s.debugAutoEnable = false) (hb : p.bracket = true → s.mcu = [] ∧ HaltDistinct s.cfg)
    (hwf : p.write = true → s.target.wf) : ∃ ph out b g,
    p.program.run s = .ok (p.answer s.target) (State.after
      { s with autoTaken := false, haltedFlag := s.haltedFlag && !p.bracket, phase := ph, bracketOpen := false, result := out }
      (rOk .dbg [] [b] :: inBracket p.bracket ((List.range p.count).flatMap (p.moves s.target))) g) ∧
    p.Reached (s.target.inHalt (s.target.mcuHalted && !p.bracket)) p.count g := by
  have closes (x : Bool) : ((x || p.bracket) && !p.bracket) = (x && !p.bracket) := by cases x <;> simp
  obtain ⟨ph₁, b, t, opened, ht⟩ := Plan.opening_quiet hp hck h hop ha.2 (.inl ha.1) fun e => (hb e).2
  rw [ha.1, enableEvents, if_pos rfl, hpol] at opened
  rw [Target.inDebug_self ha.1] at ht
  have same : t.SameBytes s.target := fun x => (ht.peek x).trans (Target.inHalt_peek ..)
  have halted : t.mcuHalted = (s.target.mcuHalted || p.bracket) := ht.mcuHalted
  generalize hu : State.after _ _ t = u at opened
  have target : u.target = t := by rw [← hu]; rfl
  have quiet : u.Quiet := by
    rw [← hu]
    refine ⟨h.1, h.2.imp (fun hm => ?_) fun hm => ?_⟩
    · simp [hm]
    · simp [halted, hm]
  obtain ⟨ph₂, m, moved, hm⟩ := Plan.transfers_debug hp quiet (target ▸ ht.answers ha)
    (fun hh => by rw [target, halted, Plan.bracket_eq_halt hp.space, hh, Bool.or_true]) (fun hw => target ▸ ht.wf (hwf hw)) le_rfl
  rw [target, Plan.moves_congr same, Plan.out_congr same] at moved
  rw [target] at hm
  generalize hv : State.after _ _ m = v at moved
  have target' : v.target = m := by rw [← hv]; rfl
  have bracket : v.bracketOpen = p.bracket := by rw [← hv, ← hu]; rfl
  obtain ⟨ph₃, g, closed, hg⟩ := Plan.closed_quiet (p := p) (s := v) (by rw [← hv]; exact quiet.1)
    (by rw [← hv, ← hu]; exact hpe) (target' ▸ hm.answers) fun e => by
      rw [bracket] at e
      exact ⟨by rw [← hv, ← hu]; simp [(hb e).1], by rw [target', hm.mcuHalted, halted, e, Bool.or_true],
        by rw [← hv, ← hu]; exact (hb e).2⟩
  rw [target', bracket, hm.mcuHalted, halted, closes] at hg
  rw [bracket] at closed
  refine ⟨ph₃, (List.range p.count).flatMap (p.out s.target), b, g, ?_, (hm.inHalt _).congr (ht.inHalt _) hg⟩
  rw [Plan.program_opening, opened, Res.bind_ok, moved, closed, Res.bind_ok, Plan.exit_debug_run hp.space,
    if_neg (by rw [← hv, ← hu]; simp), Res.bind_ok, ← hv, ← hu, inBracket_eq]
  simp [State.after, closes, hpol, hres, Plan.answer, Nat.add_assoc, Nat.add_comm, Nat.add_left_comm]

/-- The same in the statements' words. -/
theorem Plan.Serves.exec_debugOn {p : Plan} {i : Instr} {q : Latches} (h : p.Serves i q) {s : State}
    (hs : s.ServesDebug (bracketed i)) (ha : s.target.Answers) (hpol : s.debugAutoEnable = false)
    (hc : bracketed i = true → HaltDistinct s.cfg) (hwf : p.write = true → s.target.wf) : ∃ b g,
    Machine.exec i s = .next ((State.after { s with haltedFlag := s.haltedFlag && !bracketed i }
      (rOk .dbg [] [b] :: inBracket (bracketed i) (transferEvents s.target i)) g).answered i (.ok (resultOf s.target i))) ∧
    g.HoldsAfter s.target i p.count ∧ g.Modes true (s.target.mcuHalted && !bracketed i) s.target.ispPtr := by
  have mcu (hb : bracketed i = true) : s.mcu = [] := hs.2.2.resolve_right fun e => by simp [hb] at e
  obtain ⟨ph, out, b, g, run, hg⟩ := Plan.program_debugOn h.inRange h.check (s := s.accept q) hs.quiet rfl rfl rfl ha hpol
    (h.bracket ▸ fun hb => ⟨mcu hb, hc hb⟩) hwf
  rw [h.bracket, State.accept_target] at run hg
  refine ⟨b, g, ?_, h.holdsAfter hg (fun x => Target.inHalt_peek ..) fun _ => rfl, hg.answers.1, hg.mcuHalted, hg.ispPtr⟩
  rw [h.exec hs.1, run, ← transferEvents_of_plan h.latches h.plan h.inRange.space,
    ← resultOf_of_plan h.latches h.plan h.inRange.space, State.answered, h.latches]
  rfl

/-! The XDATA requests (R143, R145). -/

/-- Settles O41: a read runs the range operation of its plan, which stores nothing (`Plan.Serves.exec_debugOn`). -/
theorem xdataReads_holds : Obligations.XdataReads := by
  unfold Obligations.XdataReads
  intro i s a n halt asked hs ha hpol hc hw
  have range : rangeAsked i = some (.xdata, a, some n, false) ∧ bracketed i = halt ∧ writesTo i = none := by
    cases i <;> cases asked <;> exact ⟨rfl, rfl, rfl⟩
  obtain ⟨range, rfl, stores⟩ := range
  obtain ⟨q, p, hp, -, read, -⟩ := plan_serves range nofun hw
  obtain ⟨b, g, run, holds, modes⟩ := hp.exec_debugOn hs ha hpol hc (by simp [read])
  rw [Target.HoldsAfter, stores] at holds
  refine ⟨b, g, ?_, holds, modes⟩
  rw [run]
  cases i <;> cases asked <;> rfl

/-- Settles O42: a write runs the range operation of its plan, which has one transfer for each element
(`Plan.Serves.exec_debugOn`). -/
theorem xdataWrites : Obligations.XdataWrites := by
  unfold Obligations.XdataWrites
  intro s a vs halt hs hwf ha hpol hc hw
  obtain ⟨q, p, hp, -, -, -, size⟩ := plan_serves (i := .xdataWrite a (some vs) halt) rfl nofun hw
  obtain ⟨b, g, run, holds, modes⟩ := hp.exec_debugOn hs ha hpol hc fun _ => hwf
  have all : vs.take p.count = vs := by simp [Plan.count, transferCount, size]
  simp only [Target.HoldsAfter, writesTo, all] at holds
  exact ⟨b, g, run, holds, modes⟩

end Sys2Proof.Machine
end

section
/-! PROOF. The EEPROM requests (45_eeprom_access.md) with debug mode on and no policy, where the transport answers as the reference
device and the MCU cannot write. -/

namespace Sys2Proof.Machine

/-- A debug range request in the window with debug mode on and no policy, from what it asks for: the probe, its transfers in its
bracket, and what they store (R121, R125). -/
theorem exec_debugOn_of_asked {i : Instr} {sp : Space} {a n : Int} {w : Bool} (asked : rangeAsked i = some (sp, a, some n, w))
    (hsp : sp ≠ .isp) (window : InWindow 0xffff a n) {s : State} (hs : s.ServesDebug (bracketed i)) (ha : s.target.Answers)
    (hpol : s.debugAutoEnable = false) (hc : bracketed i = true → HaltDistinct s.cfg) (hwf : w = true → s.target.wf) : ∃ b g,
    exec i s = .next ((State.after { s with haltedFlag := s.haltedFlag && !bracketed i }
      (rOk .dbg [] [b] :: inBracket (bracketed i) (transferEvents s.target i)) g).answered i (.ok (resultOf s.target i))) ∧
    g.HoldsAfter s.target i n.toNat ∧ g.Modes true (s.target.mcuHalted && !bracketed i) s.target.ispPtr := by
  obtain ⟨q, p, serves, -, rfl, -, rfl⟩ := plan_serves asked hsp window
  exact serves.exec_debugOn hs ha hpol hc hwf

/-- Settles O43: `eeprom.read` and `eeprom.dump` are range requests that store nothing (`exec_debugOn_of_asked`); a dump's
length is the one it asks for (R157). -/
theorem eepromReads_holds : Obligations.EepromReads := by
  unfold Obligations.EepromReads
  intro i s a n c halt asked hs ha hpol hc window
  cases i <;> cases asked
  case eepromRead => exact exec_debugOn_of_asked (i := .eepromRead a n c halt) rfl nofun window hs ha hpol hc nofun
  case eepromDump length last =>
    exact exec_debugOn_of_asked (i := .eepromDump a length last c halt) rfl nofun window hs ha hpol hc nofun

/-- Settles O44: after as many transfers as the payload has elements, all of it is stored (`exec_debugOn_of_asked`). -/
theorem eepromWrites : Obligations.EepromWrites := by
  unfold Obligations.EepromWrites
  intro s a vs c halt hs hwf ha hpol hc window
  obtain ⟨b, g, run, stored, modes⟩ :=
    exec_debugOn_of_asked (i := .eepromWrite a (some vs) c halt) rfl nofun window hs ha hpol hc fun _ => hwf
  have all : vs.take (vs.length : Int).toNat = vs := List.take_length
  simp only [Target.HoldsAfter, writesTo, all] at stored
  exact ⟨b, g, run, stored, modes⟩

end Sys2Proof.Machine
end

section
/-! PROOF. A dump is the read of the same range (R157): the two requests have one plan, and the range operation looks at its plan, not
at the latches the plan was read from. -/

namespace Sys2Proof.Machine

/-- The same state with other latches loaded. -/
def State.latching (s : State) (l : Option Latches) : State := { s with latches := l }

/-- The program neither reads the latches nor writes them. -/
def Prog.LatchBlind {α : Type} : Prog α → Prop
  | .ret _ => True
  | .throw _ => True
  | .fault _ => True
  | .bus _ r => ∀ o, (r o).LatchBlind
  | .sleep _ r => r.LatchBlind
  | .get r => (∀ s l, r (s.latching l) = r s) ∧ ∀ s, (r s).LatchBlind
  | .set f r => (∀ s l, f (s.latching l) = (f s).latching l) ∧ r.LatchBlind

theorem State.conclude_latching (s : State) (l : Option Latches) (x : Txn) (a : Answer) (g : Target) :
    (s.latching l).conclude x a g = (s.conclude x a g).onState (·.latching l) := by
  cases a <;> rfl

/-- The bus and the device do not see the latches. -/
theorem transact_latching (x : Txn) (s : State) (l : Option Latches) :
    transact x (s.latching l) = (transact x s).onState (·.latching l) := by
  have fate (f : Fate) (u : State) : transactAs f x (u.latching l) = (transactAs f x u).onState (·.latching l) := by
    have answer : (u.latching l).target.answer (u.latching l).cfg x = u.target.answer u.cfg x := rfl
    unfold transactAs
    rw [answer]
    rcases f with _ | ⟨a, _ | _⟩
    case override.false => exact State.conclude_latching ..
    all_goals
      cases u.target.answer u.cfg x with
      | none => rfl
      | some ag => exact State.conclude_latching ..
  exact fate _ s.mcuActs.dropFate

/-- Such a program runs the same whatever latches are loaded, and leaves them loaded. -/
theorem Prog.LatchBlind.run {α : Type} {p : Prog α} (hp : p.LatchBlind) (s : State) (l : Option Latches) :
    p.run (s.latching l) = (p.run s).onState (·.latching l) := by
  induction p generalizing s with
  | ret a => rfl
  | throw e => rfl
  | fault f => rfl
  | bus x r ih =>
    rw [Prog.run_bus, Prog.run_bus, transact_latching]
    cases transact x s
    case ok rs t => exact ih _ (hp _) t
    case raised e t => exact ih _ (hp _) t
    all_goals rfl
  | sleep ms r ih => exact ih hp (Machine.sleep ms s)
  | get r ih => rw [Prog.run_get, hp.1]; exact ih s (hp.2 s) s
  | set f r ih => rw [Prog.run_set, hp.1]; exact ih hp.2 (f s)

namespace Prog.LatchBlind

variable {α β : Type}

theorem ret (a : α) : (Prog.ret a).LatchBlind := trivial

theorem throw (e : Err) : (Prog.throw e : Prog α).LatchBlind := trivial

theorem bind {p : Prog α} {k : α → Prog β} (hp : p.LatchBlind) (hk : ∀ a, (k a).LatchBlind) : (p.bind k).LatchBlind := by
  induction p with
  | ret a => exact hk a
  | throw e => trivial
  | fault f => trivial
  | bus x r ih => exact fun o => ih o (hp o)
  | sleep ms r ih => exact ih hp
  | get r ih => exact ⟨fun s l => congrArg (·.bind k) (hp.1 s l), fun s => ih s (hp.2 s)⟩
  | set f r ih => exact ⟨hp.1, ih hp.2⟩

theorem attempt {p : Prog α} (hp : p.LatchBlind) : p.attempt.LatchBlind := by
  induction p with
  | ret a => trivial
  | throw e => trivial
  | fault f => trivial
  | bus x r ih => exact fun o => ih o (hp o)
  | sleep ms r ih => exact ih hp
  | get r ih => exact ⟨fun s l => congrArg Prog.attempt (hp.1 s l), fun s => ih s (hp.2 s)⟩
  | set f r ih => exact ⟨hp.1, ih hp.2⟩

theorem ite {c : Prop} [Decidable c] {p q : Prog α} (hp : p.LatchBlind) (hq : q.LatchBlind) : (if c then p else q).LatchBlind := by
  split
  · exact hp
  · exact hq

theorem get {r : State → Prog α} (h : ∀ s, (r s).LatchBlind) (hr : ∀ s l, r (s.latching l) = r s := by exact fun _ _ => rfl) :
    (Prog.get r).LatchBlind := ⟨hr, h⟩

theorem bus (x : Txn) : (Machine.bus x).LatchBlind := fun o => by cases o <;> trivial

theorem delay (ms : Nat) : (Machine.delay ms).LatchBlind := trivial

theorem assign (f : State → State) (h : ∀ s l, f (s.latching l) = (f s).latching l := by exact fun _ _ => rfl) :
    (Machine.assign f).LatchBlind := ⟨h, trivial⟩

/-! The mode gate (41_mode_gate.md). -/

theorem ispGuard : Machine.ispGuard.LatchBlind :=
  ((bus _).bind fun _ => ret _).bind fun _ => ite (ret _) (throw _)

theorem queryDebugEnabled : Machine.queryDebugEnabled.LatchBlind := fun o => by
  dsimp only
  split <;> trivial

theorem setDebugEnabled (on force : Bool) : (Machine.setDebugEnabled on force).LatchBlind :=
  have write : (Prog.get fun s : State => if !on && s.haltedFlag then .throw (.invalidState .disableWhileHalted)
      else (Machine.delay tMode).bind fun _ => (Machine.bus (txDebug on s.cfg)).bind fun _ => Machine.delay tMode).LatchBlind :=
    get fun _ => ite (throw _) ((delay _).bind fun _ => (bus _).bind fun _ => delay _)
  ite write (queryDebugEnabled.bind fun _ => ite (ret _) write)

theorem debugGuardEnter : Machine.debugGuardEnter.LatchBlind :=
  (assign _).bind fun _ => get fun _ => ite ((assign _).bind fun _ => setDebugEnabled true false)
    (queryDebugEnabled.bind fun _ => ite (ret _) (throw _))

theorem debugGuardExit : Machine.debugGuardExit.LatchBlind := get fun _ => ite (setDebugEnabled false false) (ret _)

/-! The transfers (R138 to R152). -/

theorem settleUnlessHalt (halt : Bool) : (Machine.settleUnlessHalt halt).LatchBlind := ite (ret _) (delay _)

theorem readXfer (p : Plan) (a : Int) : (Machine.readXfer p a).LatchBlind := by
  have data (x : Txn) : ((Machine.bus x).bind fun rs => .ret (rs.headD 0)).LatchBlind := (bus x).bind fun _ => ret _
  unfold Machine.readXfer
  split
  · exact (bus _).bind fun _ => data _
  · exact (bus _).bind fun _ => (settleUnlessHalt _).bind fun _ => data _
  · exact (bus _).bind fun _ => (delay _).bind fun _ => (settleUnlessHalt _).bind fun _ => data _

theorem writeXfer (p : Plan) (a : Int) (v : Byte) : (Machine.writeXfer p a v).LatchBlind := by
  unfold Machine.writeXfer
  split
  · exact (bus _).bind fun _ => ret _
  · exact (bus _).bind fun _ => settleUnlessHalt _
  · exact (bus _).bind fun _ => (delay _).bind fun _ => settleUnlessHalt _

/-! The range operation (R125 to R130). -/

section range
variable (p : Plan)

theorem haltCtl (on : Bool) : (Machine.haltCtl on).LatchBlind := (bus _).bind fun _ => (assign _).bind fun _ => delay _

theorem advance : p.advance.LatchBlind := assign _

theorem gate : p.gate.LatchBlind := by
  unfold Plan.gate
  split
  · exact ispGuard
  · exact debugGuardEnter
  · exact debugGuardEnter

theorem check : p.check.LatchBlind := by
  refine ite (throw _) ?_
  split <;> trivial

theorem haltOpen : p.haltOpen.LatchBlind :=
  ite ((haltCtl true).bind fun _ => (assign _).bind fun _ => advance p) (ret _)

theorem transfer (i : Nat) : (p.transfer i).LatchBlind := ite (writeXfer p _ _) ((readXfer p _).bind fun _ => assign _)

theorem transfers (k i : Nat) : (p.transfers k i).LatchBlind := by
  induction k generalizing i with
  | zero => trivial
  | succ k ih => exact (transfer p i).bind fun _ => (advance p).bind fun _ => ih (i + 1)

theorem haltClose : p.haltClose.LatchBlind :=
  (assign _).bind fun _ => (haltCtl false).bind fun _ => (advance p).bind fun _ => get fun s => by
    split <;> trivial

/-- The `finally` looks at the end of the transfers and at the bracket. -/
theorem close {body : Prog Unit} (hb : body.LatchBlind) : (p.close body).LatchBlind := hb.attempt.bind fun
  | .ok _ => get fun _ => ite (haltClose p) (ret _)
  | .error _ => get fun _ => ite ((assign _).bind fun _ => haltClose p) ((assign _).bind fun _ => throw _)

theorem exit : p.exit.LatchBlind := by
  unfold Plan.exit
  split
  · exact ret _
  · exact debugGuardExit
  · exact debugGuardExit

theorem program : p.program.LatchBlind :=
  (advance p).bind fun _ => (gate p).bind fun _ => (advance p).bind fun _ => (check p).bind fun _ =>
    (advance p).bind fun _ => (haltOpen p).bind fun _ => (close p (transfers p _ _)).bind fun _ =>
      (exit p).bind fun _ => get fun _ => ret _
end range

end Prog.LatchBlind

/-- Two range requests with one plan do the same: the trace, the response and the state are one's as the other's, but for the latches
each has loaded (R26, R125). -/
theorem exec_of_same_plan {i j : Instr} {q q' : Latches} {p : Plan} (hi : latchesOf i = some q) (hj : latchesOf j = some q')
    (hq : q.plan = some p) (hq' : q'.plan = some p) {s t : State} (run : exec i s = .next t) :
    exec j s = .next { t with latches := latchesOf j } := by
  have ready : s.life = .ready := by
    by_contra hl
    rw [exec_request hi, if_neg hl] at run
    cases run
  rw [exec_range hi hq s ready] at run
  have twin : p.program.run (s.accept q') = (p.program.run (s.accept q)).onState (·.latching (some q')) :=
    (Prog.LatchBlind.program p).run (s.accept q) (some q')
  rw [exec_range hj hq' s ready, hj, twin]
  cases e : p.program.run (s.accept q) <;> rw [e] at run <;> cases run <;> rfl

/-- Settles O24: a dump's length is the one it asks for (`dumpLength_eq`), so its plan is the plan of the read
(`exec_of_same_plan`). -/
theorem dumpIsRead : Obligations.DumpIsRead := by
  unfold Obligations.DumpIsRead
  intro s a n e h g
  simp only [← dumpLength_eq]
  exact ⟨fun t => exec_of_same_plan rfl rfl rfl rfl, fun t => exec_of_same_plan rfl rfl rfl rfl,
    fun t => exec_of_same_plan rfl rfl rfl rfl⟩

end Sys2Proof.Machine
end

section
/-! PROOF. The invariant of the machine (R39, R163): whatever answers, the target's memories stay well formed, and a request that is
answered leaves nothing of itself but its latches. -/

namespace Sys2Proof.Machine

/-! The memories (R41 to R43, log 6). -/

/-- The target of `t` is well formed if that of `s` is. -/
def KeepsWf (s t : State) : Prop := s.target.wf → t.target.wf

theorem State.mcuActs_keepsWf (s : State) : KeepsWf s s.mcuActs := Target.mcuTurn_wf s.target _

/-- What a transaction can leave of the target (`transact_cases`): an answer of the reference device, or the MCU's turn alone. -/
theorem Target.wf_of_transacted {s : State} {x : Txn} {g : Target} (wf : s.target.wf)
    (h : (∃ b g' o, s.mcuActs.target.answer s.cfg x = some (b, g') ∧ g = g'.reported s.mcuActs.target o) ∨ g = s.mcuActs.target) :
    g.wf := by
  have turned := s.mcuActs_keepsWf wf
  rcases h with ⟨b, g', o, answered, rfl⟩ | rfl
  · exact Target.reported_wf _ o (Target.answer_wf turned answered)
  · exact turned

theorem transact_keepsWf {x : Txn} {s : State} (hx : Txn.listed s.cfg x = true) : (transact x s).Ends (KeepsWf s) :=
  transact_ends x s hx fun _ _ hg => ⟨fun wf => Target.wf_of_transacted wf hg, fun _ wf => Target.wf_of_transacted wf hg⟩

/-- Every primitive of the engine keeps the memories well formed. -/
theorem keepsWf_closed : Closed KeepsWf where
  refl _ := id
  trans h h' := h' ∘ h
  keep h wf := h.target ▸ wf
  plain _ _ h := transact_keepsWf h.listed
  halt on s := by
    rw [haltCtl_run]
    exact (transact_keepsWf (listed_txHalt _ on)).bind (fun _ t h wf => t.mcuActs_keepsWf (h wf)) fun _ h => h
  disable _ _ := transact_keepsWf (listed_txDbgDis _)
  sleep _ s := s.mcuActs_keepsWf

/-! The instructions. -/

/-- A request leaves the block Ready with its per-request latches clear, or Busy (R163, R170). -/
theorem request_inv {i : Instr} {q : Latches} (hq : latchesOf i = some q) {s t : State} (hs : s.Inv) (hx : exec i s = .next t) :
    t.Inv := by
  have ends := (keepsWf_closed.request hq (fun _ _ _ => id) s).and (busy_closed.request hq (fun _ _ _ => id) s)
  have ready := life_of_served hq hx
  rw [exec_request hq, if_pos ready] at hx
  cases e : (programOf q.op).run (s.accept q) <;> rw [e] at ends hx <;> cases hx <;> obtain ⟨wf, busy⟩ := ends
  case ok r u => exact ⟨wf hs.1, fun _ => ⟨rfl, rfl, rfl, rfl, rfl⟩⟩
  case raised er u => exact ⟨wf hs.1, fun _ => ⟨rfl, rfl, rfl, rfl, rfl⟩⟩
  case hung => exact ⟨wf hs.1, fun ready => nomatch (busy rfl).symm.trans ready⟩

/-- A transaction alone touches nothing of a request, and one that hangs leaves the block Busy. -/
theorem transact_inv {x : Txn} {s : State} (hx : Txn.listed s.cfg x = true) (hs : s.Inv) : (transact x s).Ends State.Inv :=
  transact_ends x s hx fun _ _ hg => ⟨⟨Target.wf_of_transacted hs.1 hg, hs.2⟩, fun _ => ⟨Target.wf_of_transacted hs.1 hg, nofun⟩⟩

theorem exec_inv {i : Instr} {s t : State} (hs : s.Inv) (hx : exec i s = .next t) : t.Inv := by
  cases hi : isRequest i with
  | true =>
    obtain ⟨q, hq⟩ := latchesOf_request hi
    exact request_inv hq hs hx
  | false =>
    obtain ⟨x, frame, listed⟩ := exec_listedFrame hi s
    have ends := transact_inv listed hs
    rw [frame, issue] at hx
    split at hx
    · cases hx
    · cases e : transact x s <;> rw [e] at ends hx <;> cases hx <;> exact ends

/-! The other steps. -/

/-- Construction gives a Ready block with nothing of a request, or a Dead one, or hangs (R186, R187). -/
theorem construct_inv {s t : State} (hs : s.Inv) (hx : construct s = .next t) : t.Inv := by
  have ends : (construction.run s).Ends State.Inv := by
    have probe := transact_inv (listed_txCtorProbe s.cfg) hs
    rw [construction_run]
    split <;> rename_i answers <;> rw [answers] at probe <;> exact probe
  unfold construct at hx
  cases e : construction.run s <;> rw [e] at ends hx <;> cases hx
  case ok r u => exact ⟨ends.1, fun _ => ⟨rfl, rfl, rfl, rfl, rfl⟩⟩
  case raised er u => exact ⟨ends.1, nofun⟩
  case hung => exact ends

/-- Whatever the host does next, its act is taken off its list and the rest of the state is as before. -/
theorem fetch_actDone {s u : State} (h : (∃ i, fetch s = .instr i u) ∨ fetch s = .newSession u) : u = s.actDone := by
  unfold fetch at h
  split at h
  · rcases h with ⟨i, h⟩ | h <;> cases h
  · split at h <;> rcases h with ⟨i, h⟩ | h <;> cases h
    rfl
  · rcases h with ⟨i, h⟩ | h <;> cases h
    rfl

theorem step_inv {s t : State} (hs : s.Inv) (hx : step s = .next t) : t.Inv := by
  have waits : s.mcuActs.Inv := ⟨s.mcuActs_keepsWf hs.1, hs.2⟩
  cases life : s.life <;> simp only [step, life] at hx
  case unbuilt => exact construct_inv hs hx
  case busy => cases hx
  case ready =>
    cases act : fetch s <;> rw [act] at hx
    case nothing => cases hx; exact waits
    case instr i u =>
      obtain rfl := fetch_actDone (.inl ⟨i, act⟩)
      exact exec_inv (s := s.actDone) hs hx
    case rejected => cases hx
    case newSession u =>
      obtain rfl := fetch_actDone (.inr act)
      cases hx
      exact ⟨hs.1, nofun⟩
  case dead =>
    cases acts : s.host <;> rw [acts] at hx <;> cases hx
    exact waits

/-- Settles O15: the induction over the engine for the requests (`keepsWf_closed`), one transaction for the frames and construction. -/
theorem theInvariantIsKept : Obligations.TheInvariantIsKept := by
  unfold Obligations.TheInvariantIsKept
  exact fun _ _ hs => ⟨step_inv hs, fun _ => exec_inv hs⟩

end Sys2Proof.Machine
end

section
/-! PROOF. The errors of a request (60_exceptions.md), whatever the transport answers: they are those of its row in the table (R161), and
after the first transaction that fails only the bracket's close follows (R162, R164). Both are read off one walk through the programs,
since the close that runs for a failed transfer ends with the error of that transfer. -/

namespace Sys2Proof.Machine

/-! Which errors are listed (R161). -/

theorem mayRaise_transport {i : Instr} (hi : isRequest i = true) (hp : i ≠ .dbgEnabled) (hs : ∀ on, i ≠ .dbgSetAuto on) (auto : Bool)
    (k : ErrClass) : mayRaise i auto (.transportError k) = true := by
  cases i
  case dbgEnabled => exact absurd rfl hp
  case dbgSetAuto on => exact absurd rfl (hs on)
  all_goals cases k <;> exact hi

theorem mayRaise_transport_of_asked {i : Instr} {r : Space × Int × Option Int × Bool} (h : rangeAsked i = some r) (auto : Bool)
    (k : ErrClass) : mayRaise i auto (.transportError k) = true := by
  refine mayRaise_transport ?_ ?_ ?_ auto k
  · cases i <;> first | rfl | cases h
  · rintro rfl
    cases h
  · rintro on rfl
    cases h

/-- The debug guard protects the range requests on the two debug spaces (R121). -/
theorem debugProtected_of_asked {i : Instr} {sp : Space} {r : Int × Option Int × Bool} (h : rangeAsked i = some (sp, r))
    (hsp : sp ≠ .isp) : debugProtected i = true := by
  unfold debugProtected
  split
  · rfl
  · cases sp with
    | isp => exact absurd rfl hsp
    | xdata => rw [h]
    | eeprom => rw [h]

theorem mayRaise_debugOff {i : Instr} (hi : debugProtected i = true) {auto : Bool} (policy : auto = false) :
    mayRaise i auto (.preconditionFailed .debug) = true := by
  simp [mayRaise, hi, policy]

theorem mayRaise_disableWhileHalted {i : Instr} (hi : debugProtected i = true) {auto : Bool} (policy : auto = true) :
    mayRaise i auto (.invalidState .disableWhileHalted) = true := by
  simp only [mayRaise, policy]
  split
  · rfl
  · rw [hi, Bool.and_true]

/-- The validator reports ranges of the space it is asked about (R108). -/
theorem validate_rangeError {sp : Space} {a n : Int} {e : Err} (h : validate sp a n = some e) : ∃ b v l, e = .rangeError sp b v l := by
  rw [validate_eq] at h
  split_ifs at h <;> cases h <;> exact ⟨_, _, _, rfl⟩

/-! What the events of a request show (R162, R164). -/

theorem precise_cons_of_failing {b : Bool} {e : Event} (h : failing b e = true) (es : List Event) :
    precise b (e :: es) = es.all ofClose := by
  simp [precise, h]

theorem precise_cons_of_passing {b : Bool} {e : Event} (h : failing b e = false) (es : List Event) :
    precise b (e :: es) = precise (if e.isTxn then isReadSetup e else b) es := by
  simp [precise, h]

/-- The events of a close are precise wherever they stand. -/
theorem precise_of_close {es : List Event} (h : es.all ofClose = true) (b : Bool) : precise b es = true := by
  induction es generalizing b with
  | nil => rfl
  | cons e es ih =>
    obtain ⟨-, rest⟩ := Bool.and_eq_true_iff.1 (List.all_cons.symm.trans h)
    cases fails : failing b e with
    | true => rw [precise_cons_of_failing fails, rest]
    | false => rw [precise_cons_of_passing fails, ih rest]

@[simp] theorem isTxn_eventOf (x : Txn) (a : Answer) : (eventOf x a).isTxn = true := by simp [Event.isTxn]

theorem failing_eventOf_ok (b : Bool) (x : Txn) (rs : List Byte) : failing b (eventOf x (.ok rs)) = false := by
  cases x <;> simp [eventOf, failing]

theorem failing_eventOf_hang (b : Bool) (x : Txn) : failing b (eventOf x .hang) = false := by
  cases x <;> simp [eventOf, failing]

/-- A transaction that is reported as failed is a failure, but for a probe of debug mode (R114, R165). -/
theorem failing_eventOf_err {b : Bool} {x : Txn} (h : b = true ∨ x ≠ txDbgProbe) (k : ErrClass) :
    failing b (eventOf x (.err k)) = true := by
  cases x with
  | w d bs => simp [eventOf, failing]
  | wr d ws n =>
    unfold failing
    split
    case h_1 heq =>
      cases heq
      exact h.resolve_right fun probe => probe rfl
    case h_2 | h_3 => rfl
    case h_4 other => exact absurd rfl (other _ _ _ _)

/-- The trace of `s` goes on from that of `s₀`, by events that are precise whatever events of a close follow. -/
def Closable (s₀ s : State) : Prop :=
  ∃ evs, s.trace = s₀.trace ++ evs ∧ ∀ es, es.all ofClose = true → precise false (evs ++ es) = true

theorem Closable.close {s₀ s t : State} {evs : List Event} (h : Closable s₀ s) (ht : t.trace = s.trace ++ evs)
    (close : evs.all ofClose = true) : Closable s₀ t := by
  obtain ⟨pre, hs, precise⟩ := h
  refine ⟨pre ++ evs, by rw [ht, hs, List.append_assoc], fun es hes => ?_⟩
  rw [List.append_assoc]
  exact precise _ (by rw [List.all_append, close, hes]; rfl)

/-- The request `i`, begun at `s₀`, goes on at `s`: the policy flag is as it was, a pending error is one of the request's row, and no
transaction has failed. `setup` says whether the last transaction was a read setup. -/
structure Going (i : Instr) (s₀ : State) (setup : Bool) (s : State) : Prop where
  policy : s.debugAutoEnable = s₀.debugAutoEnable
  taken : s.autoTaken = true → s₀.debugAutoEnable = true
  pending : ∀ e, s.pendingError = some e → mayRaise i s₀.debugAutoEnable e = true
  trace : ∃ evs, s.trace = s₀.trace ++ evs ∧ ∀ es, precise false (evs ++ es) = precise setup es

theorem Going.accepted {i : Instr} {s : State} (q : Latches) : Going i (s.accept q) false (s.accept q) :=
  ⟨rfl, nofun, nofun, [], by simp, fun _ => rfl⟩

theorem Going.closable {i : Instr} {s₀ s : State} {b : Bool} (h : Going i s₀ b s) : Closable s₀ s := by
  obtain ⟨evs, ht, precise⟩ := h.trace
  exact ⟨evs, ht, fun es hes => (precise es).trans (precise_of_close hes b)⟩

/-- A change of the engine's own state that shows nowhere in the trace. -/
theorem Going.silent {i : Instr} {s₀ s t : State} {b : Bool} (h : Going i s₀ b s)
    (policy : t.debugAutoEnable = s.debugAutoEnable := by rfl) (taken : t.autoTaken = s.autoTaken := by rfl)
    (pending : t.pendingError = s.pendingError := by rfl) (trace : t.trace = s.trace := by rfl) : Going i s₀ b t :=
  ⟨policy.trans h.policy, taken ▸ h.taken, pending ▸ h.pending, trace ▸ h.trace⟩

/-- An event that is no failure. -/
theorem Going.pass {i : Instr} {s₀ s : State} {b c : Bool} {e : Event} (h : Going i s₀ b s) (passes : failing b e = false)
    (next : (if e.isTxn then isReadSetup e else b) = c) {g : Target} : Going i s₀ c (s.record e g) := by
  obtain ⟨evs, ht, precise⟩ := h.trace
  refine ⟨h.policy, h.taken, h.pending, evs ++ [e], ?_, fun es => ?_⟩
  · rw [State.record_trace, ht, List.append_assoc]
  · rw [List.append_assoc, precise, List.singleton_append, precise_cons_of_passing passes, next]

/-- The first failure: only a close may follow. -/
theorem Going.fail {i : Instr} {s₀ s : State} {b : Bool} {e : Event} (h : Going i s₀ b s) (fails : failing b e = true) {g : Target} :
    Closable s₀ (s.record e g) := by
  obtain ⟨evs, ht, precise⟩ := h.trace
  refine ⟨evs ++ [e], ?_, fun es hes => ?_⟩
  · rw [State.record_trace, ht, List.append_assoc]
  · rw [List.append_assoc, precise, List.singleton_append, precise_cons_of_failing fails, hes]

/-! How an operation of a request ends. -/

/-- The operation completes with `Q`, or raises an error of the request's row, or hangs; where it does not complete it is precise. -/
def Res.Orderly (i : Instr) (s₀ : State) (Q : State → Prop) {α : Type} : Res α → Prop
  | .ok _ s => Q s
  | .raised e s => mayRaise i s₀.debugAutoEnable e = true ∧ Closable s₀ s
  | .hung s => Closable s₀ s
  | .fault _ => True
  | .refused _ => True

theorem Res.Orderly.bind {i : Instr} {s₀ : State} {Q Q' : State → Prop} {α β : Type} {r : Res α} {k : α → State → Res β}
    (h : r.Orderly i s₀ Q) (hk : ∀ a s, Q s → (k a s).Orderly i s₀ Q') : (r.bind k).Orderly i s₀ Q' := by
  cases r with
  | ok a s => exact hk a s h
  | raised e s => exact h
  | hung s => exact h
  | fault f => trivial
  | refused q => trivial

theorem Res.Orderly.mono {i : Instr} {s₀ : State} {Q Q' : State → Prop} {α : Type} {r : Res α} (h : r.Orderly i s₀ Q)
    (hQ : ∀ s, Q s → Q' s) : r.Orderly i s₀ Q' := by
  cases r with
  | ok a s => exact hQ s h
  | raised e s => exact h
  | hung s => exact h
  | fault f => trivial
  | refused q => trivial

/-- A transaction ends with one outcome, or its frame has no meaning and is refused. -/
theorem transact_concludes (x : Txn) (s : State) :
    (∃ a g, transact x s = s.mcuActs.dropFate.conclude x a g) ∨ transact x s = .refused .unlistedFrame := by
  rw [transact_eq]
  unfold transactAs
  split
  · exact .inl ⟨_, _, rfl⟩
  · split
    · exact .inl ⟨_, _, rfl⟩
    · exact .inr rfl
  · split
    · exact .inl ⟨_, _, rfl⟩
    · exact .inr rfl

/-- The program is orderly; `b` says whether the transaction before it is a read setup, `c` whether its own last one is. -/
def Prog.Orderly (i : Instr) (s₀ : State) (b c : Bool) {α : Type} (p : Prog α) : Prop :=
  ∀ s, Going i s₀ b s → (p.run s).Orderly i s₀ (Going i s₀ c)

namespace Prog.Orderly

variable {i : Instr} {s₀ : State} {b c d : Bool} {α β : Type}

theorem ret (a : α) : (Prog.ret a).Orderly i s₀ b b := fun _ h => h

theorem throw {e : Err} (h : mayRaise i s₀.debugAutoEnable e = true) : (Prog.throw e : Prog α).Orderly i s₀ b c :=
  fun _ going => ⟨h, going.closable⟩

theorem bind {p : Prog α} {k : α → Prog β} (hp : p.Orderly i s₀ b c) (hk : ∀ a, (k a).Orderly i s₀ c d) :
    (p.bind k).Orderly i s₀ b d := fun s h => by
  rw [Prog.run_bind]
  exact (hp s h).bind fun a u hu => hk a u hu

theorem ite {q : Prop} [Decidable q] {p p' : Prog α} (h : q → p.Orderly i s₀ b c) (h' : ¬q → p'.Orderly i s₀ b c) :
    (if q then p else p').Orderly i s₀ b c := by
  split
  · exact h ‹_›
  · exact h' ‹_›

theorem get {r : State → Prog α} (h : ∀ s, Going i s₀ b s → (r s).Orderly i s₀ b c) : (Prog.get r).Orderly i s₀ b c :=
  fun s going => h s going s going

theorem assign {f : State → State} (h : ∀ s, Going i s₀ b s → Going i s₀ b (f s) := by exact fun _ h => h.silent) :
    (Machine.assign f).Orderly i s₀ b b := h

theorem delay (ms : Nat) : (Machine.delay ms).Orderly i s₀ b b := fun s h =>
  Going.pass (s := s.mcuActs) (e := .d ms) h.silent rfl rfl

section transport
variable (transport : ∀ k, mayRaise i s₀.debugAutoEnable (.transportError k) = true)
include transport

/-- A transaction whose failures are failures of the request: it is no probe of debug mode, or comes after a read setup. -/
theorem bus {x : Txn} (hx : b = true ∨ x ≠ txDbgProbe := by exact .inr nofun)
    (setup : ∀ a, isReadSetup (eventOf x a) = c := by exact fun _ => rfl) : (Machine.bus x).Orderly i s₀ b c := by
  intro s h
  have going : Going i s₀ b s.mcuActs.dropFate := h.silent
  rw [bus_run]
  have next (a : Answer) : (if (eventOf x a).isTxn then isReadSetup (eventOf x a) else b) = c := by simp [setup]
  rcases transact_concludes x s with ⟨rs | k | _, g, e⟩ | e <;> rw [e]
  · exact going.pass (failing_eventOf_ok b x rs) (next _)
  · exact ⟨transport k, going.fail (failing_eventOf_err hx k)⟩
  · exact (going.pass (g := g) (failing_eventOf_hang b x) (next _)).closable
  · trivial

/-! The mode gate (41_mode_gate.md). -/

theorem queryIspEnabled : Machine.queryIspEnabled.Orderly i s₀ false false :=
  (bus transport).bind fun _ => ret _

theorem setIspEnabled (on force : Bool) : (Machine.setIspEnabled on force).Orderly i s₀ false false :=
  have write := (bus (c := false) transport).bind fun _ => ret ()
  ite (fun _ => write) fun _ => (queryIspEnabled transport).bind fun _ => ite (fun _ => ret _) fun _ => write

theorem ispGuard (h : mayRaise i s₀.debugAutoEnable (.preconditionFailed .isp) = true) : Machine.ispGuard.Orderly i s₀ false false :=
  (queryIspEnabled transport).bind fun _ => ite (fun _ => ret _) fun _ => throw h

omit transport in
/-- The probe of debug mode is no failure where it finds it off (R114): the other failures are raised. -/
theorem queryDebugEnabled (other : mayRaise i s₀.debugAutoEnable (.transportError .other) = true) :
    Machine.queryDebugEnabled.Orderly i s₀ false false := by
  intro s h
  have going : Going i s₀ false s.mcuActs.dropFate := h.silent
  rw [queryDebugEnabled_run]
  rcases transact_concludes txDbgProbe s with ⟨rs | ⟨_ | _⟩ | _, g, e⟩ | e <;> rw [e]
  · exact going.pass (e := eventOf txDbgProbe (.ok rs)) rfl rfl
  · exact going.pass (e := eventOf txDbgProbe (.err .unreachable)) rfl rfl
  · exact ⟨other, going.fail rfl⟩
  · exact (going.pass (e := eventOf txDbgProbe .hang) (g := g) rfl rfl).closable
  · trivial

/-- Only switching debug mode off can meet the halted flag (R118). -/
theorem setDebugEnabled {on : Bool} (force : Bool)
    (halted : on = false → mayRaise i s₀.debugAutoEnable (.invalidState .disableWhileHalted) = true) :
    (Machine.setDebugEnabled on force).Orderly i s₀ false false := by
  have mode (p : Params) : (Machine.bus (txDebug on p)).Orderly i s₀ false false := by
    cases on with
    | true => exact bus transport
    | false => exact bus transport (setup := fun _ => by simp [eventOf, txDebug, txDbgDis, DisableSeq.bytes, isReadSetup])
  have write : (Prog.get fun s => if !on && s.haltedFlag then .throw (.invalidState .disableWhileHalted)
      else (Machine.delay tMode).bind fun _ => (Machine.bus (txDebug on s.cfg)).bind fun _ => Machine.delay tMode).Orderly i s₀ false false :=
    get fun s _ => ite (fun refused => throw (halted (by simpa using (Bool.and_eq_true_iff.1 refused).1))) fun _ =>
      (delay _).bind fun _ => (mode s.cfg).bind fun _ => delay _
  exact ite (fun _ => write) fun _ => (queryDebugEnabled (transport .other)).bind fun _ => ite (fun _ => ret _) fun _ => write

/-- The policy flag alone chooses between the two errors of the debug guard (R122). -/
theorem debugGuardEnter (guarded : debugProtected i = true) : Machine.debugGuardEnter.Orderly i s₀ false false := by
  intro s h
  have latched : Going i s₀ false s.latchAuto := ⟨h.policy, fun taken => h.policy.symm.trans taken, h.pending, h.trace⟩
  rw [debugGuardEnter_run]
  split
  · exact setDebugEnabled (on := true) transport false nofun _ latched.silent
  · next off =>
    have policy : s₀.debugAutoEnable = false := h.policy.symm.trans (Bool.eq_false_iff.2 off)
    refine (queryDebugEnabled (transport .other) _ latched).bind fun b u going => ?_
    split
    · exact going
    · exact ⟨mayRaise_debugOff guarded policy, going.closable⟩

theorem debugGuardExit (guarded : debugProtected i = true) : Machine.debugGuardExit.Orderly i s₀ false false :=
  get fun _ h => ite (fun taken => setDebugEnabled transport false fun _ => mayRaise_disableWhileHalted guarded (h.taken taken))
    fun _ => ret _

/-! The transfers (R138 to R152). -/

omit transport in
theorem settleUnlessHalt (halt : Bool) : (Machine.settleUnlessHalt halt).Orderly i s₀ b b :=
  ite (fun _ => ret _) fun _ => delay _

/-- The data read after a read setup, whose failures are failures (R165). -/
theorem dataRead : ((Machine.bus txDbgData).bind fun rs => .ret (rs.headD 0)).Orderly i s₀ true false :=
  (bus transport (.inl rfl)).bind fun _ => ret _

theorem readXfer (p : Plan) (a : Int) : (Machine.readXfer p a).Orderly i s₀ false false := by
  unfold Machine.readXfer
  split
  · exact (bus (c := false) transport).bind fun _ => (bus transport).bind fun _ => ret _
  · exact (bus transport).bind fun _ => (settleUnlessHalt _).bind fun _ => dataRead transport
  · exact (bus transport).bind fun _ => (delay _).bind fun _ => (settleUnlessHalt _).bind fun _ => dataRead transport

theorem writeXfer (p : Plan) (a : Int) (v : Byte) : (Machine.writeXfer p a v).Orderly i s₀ false false := by
  unfold Machine.writeXfer
  split
  · exact (bus transport).bind fun _ => ret _
  · exact (bus transport).bind fun _ => settleUnlessHalt _
  · exact (bus transport).bind fun _ => (delay _).bind fun _ => settleUnlessHalt _

/-! The range operation (R125) and `haltMcu` (R131). -/

omit transport in
theorem advance (p : Plan) : p.advance.Orderly i s₀ b b := assign

theorem haltCtl (on : Bool) : (Machine.haltCtl on).Orderly i s₀ false false :=
  (bus transport (setup := by cases on <;> exact fun _ => rfl)).bind fun _ => bind assign fun _ => delay _

theorem haltOpen (p : Plan) : p.haltOpen.Orderly i s₀ false false :=
  ite (fun _ => (haltCtl transport true).bind fun _ => bind assign fun _ => advance p) fun _ => ret _

theorem transfer (p : Plan) (j : Nat) : (p.transfer j).Orderly i s₀ false false :=
  ite (fun _ => writeXfer transport p _ _) fun _ => (readXfer transport p _).bind fun _ => assign

theorem transfers (p : Plan) (k j : Nat) : (p.transfers k j).Orderly i s₀ false false := by
  induction k generalizing j with
  | zero => exact ret _
  | succ k ih => exact (transfer transport p j).bind fun _ => (advance p).bind fun _ => ih (j + 1)

theorem haltClose (p : Plan) : p.haltClose.Orderly i s₀ false false :=
  bind assign fun _ => (haltCtl transport false).bind fun _ => (advance p).bind fun _ => get fun s h => by
    cases pending : s.pendingError with
    | some e => exact throw (h.pending e pending)
    | none => exact ret _

/-- The close that runs for an error does not complete: it ends with that error or with its own (R129, R130). -/
theorem haltClose_of_error (p : Plan) {Q : State → Prop} {s : State} {e : Err} (pending : s.pendingError = some e)
    (listed : mayRaise i s₀.debugAutoEnable e = true) (h : Closable s₀ s) : (p.haltClose.run s).Orderly i s₀ Q := by
  rw [Plan.haltClose_run, haltCtl_run]
  rcases transact_concludes (txHalt false) s.markClosed with ⟨rs | k | _, g, e'⟩ | e' <;> rw [e']
  · simp only [State.conclude, Res.bind_ok, sleep_pendingError, State.setHalted_pendingError, State.record_pendingError,
      State.dropFate_pendingError, State.mcuActs_pendingError, State.markClosed_pendingError, pending]
    exact ⟨listed, h.close (evs := [_, .d 100]) (List.append_assoc ..) rfl⟩
  · exact ⟨transport k, h.close (evs := [_]) rfl rfl⟩
  · exact h.close (evs := [_]) rfl rfl
  · trivial

/-- The transfers and the `finally` that closes their bracket (R129). -/
theorem close (p : Plan) {body : Prog Unit} (h : body.Orderly i s₀ false false) : (p.close body).Orderly i s₀ false false := by
  intro s going
  have ends := h s going
  rw [Plan.close_run]
  cases e : body.run s <;> rw [e] at ends
  case ok a t =>
    rw [Plan.closed]
    split
    · exact haltClose transport p t ends
    · exact ends
  case raised er t =>
    obtain ⟨listed, closable⟩ := ends
    rw [Plan.closed]
    split
    · exact haltClose_of_error transport p rfl listed closable
    · exact ⟨listed, closable⟩
  all_goals exact ends

theorem haltMcu (guarded : debugProtected i = true) (on : Bool) : (Machine.haltMcu on).Orderly i s₀ false false :=
  have place (ph : State → Phase) : (atPhase ph).Orderly i s₀ false false := assign
  (place _).bind fun _ => (debugGuardEnter transport guarded).bind fun _ => (place _).bind fun _ => (haltCtl transport on).bind fun _ =>
  (place _).bind fun _ => (debugGuardExit transport guarded).bind fun _ => ret _

theorem ispReset : Machine.ispReset.Orderly i s₀ false false :=
  (setIspEnabled transport true true).bind fun _ => (bus transport).bind fun _ => ret _

end transport

/-! The requests. -/

/-- A range request raises the errors of its row: those of its gate, its payload and its window, and the transport's (R161). -/
theorem program {p : Plan} {n : Option Int} (asked : rangeAsked i = some (p.space, p.start, n, p.write))
    (payload : p.write = true → n = p.payload.map fun l => (l.length : Int)) : p.program.Orderly i s₀ false false := by
  have transport := mayRaise_transport_of_asked asked s₀.debugAutoEnable
  have guarded := debugProtected_of_asked asked
  have gate : p.gate.Orderly i s₀ false false := by
    unfold Plan.gate
    cases space : p.space <;> rw [space] at asked guarded
    case isp => exact ispGuard transport (by simp [mayRaise, asked])
    all_goals exact debugGuardEnter transport (guarded nofun)
  have check : p.check.Orderly i s₀ false false := by
    refine ite (fun missing => throw ?_) fun _ => ?_
    · obtain ⟨write, absent⟩ := Bool.and_eq_true_iff.1 missing
      have size : n = none := by rw [payload write, Option.isNone_iff_eq_none.1 absent, Option.map_none]
      simp [mayRaise, asked, write, size]
    · split
      · next e invalid =>
        obtain ⟨bound, v, l, rfl⟩ := validate_rangeError invalid
        exact throw (by simp [mayRaise, asked])
      · exact ret _
  have exit : p.exit.Orderly i s₀ false false := by
    unfold Plan.exit
    cases space : p.space <;> rw [space] at guarded
    case isp => exact ret _
    all_goals exact debugGuardExit transport (guarded nofun)
  exact (advance p).bind fun _ => gate.bind fun _ => (advance p).bind fun _ => check.bind fun _ => (advance p).bind fun _ =>
    (haltOpen transport p).bind fun _ => (close transport p (transfers transport p _ _)).bind fun _ => exit.bind fun _ =>
      get fun _ _ => ret _

end Prog.Orderly

/-- A request that has a plan is a range request. -/
theorem rangeAsked_of_plan {i : Instr} {q : Latches} {p : Plan} (hq : latchesOf i = some q) (hp : q.plan = some p) :
    ∃ sp a n w, rangeAsked i = some (sp, a, n, w) := by
  cases i <;> cases hq <;> first | exact ⟨_, _, _, _, rfl⟩ | cases hp

/-- Every request is orderly, from its acceptance on. -/
theorem request_orderly {i : Instr} {q : Latches} (hi : isRequest i = true) (hq : latchesOf i = some q) (s : State) :
    ((programOf q.op).run (s.accept q)).Orderly i (s.accept q) (Closable (s.accept q)) := by
  have going : Going i (s.accept q) false (s.accept q) := .accepted q
  have transport := mayRaise_transport hi (auto := (s.accept q).debugAutoEnable)
  rcases program_cases hq with ⟨p, hp, e⟩ | ⟨rfl, e⟩ | ⟨rfl, e⟩ | ⟨rfl, e⟩ | ⟨rfl, e⟩ | ⟨rfl, e⟩ | ⟨rfl, e⟩ | ⟨rfl, e⟩ <;> rw [e _ rfl]
  · obtain ⟨sp, a, n, w, asked⟩ := rangeAsked_of_plan hq hp
    obtain ⟨q', hq', hp', -, payload, -⟩ := plan_of_asked asked
    obtain rfl : q = q' := Option.some.inj (hq.symm.trans hq')
    obtain rfl := Option.some.inj (hp.symm.trans hp')
    exact (Prog.Orderly.program asked payload _ going).mono fun _ h => h.closable
  · exact (Prog.Orderly.queryIspEnabled (transport nofun nofun) _ going).bind fun _ _ h => h.closable
  · exact (Prog.Orderly.setIspEnabled (transport nofun nofun) _ _ _ going).bind fun _ _ h => h.closable
  · exact (Prog.Orderly.queryDebugEnabled rfl _ going).bind fun _ _ h => h.closable
  · exact (Prog.Orderly.setDebugEnabled (transport nofun nofun) _ (fun _ => rfl) _ going).bind fun _ _ h => h.closable
  · exact going.closable
  · exact (Prog.Orderly.ispReset (transport nofun nofun) _ going).mono fun _ h => h.closable
  · exact (Prog.Orderly.haltMcu (transport nofun nofun) rfl _ _ going).mono fun _ h => h.closable

/-- What an orderly request shows: precise events, and where it is answered with an error, one of its row. -/
theorem exec_orderly {i : Instr} {s t : State} (hi : isRequest i = true) (hx : exec i s = .next t) :
    Closable s t ∧ ∀ e, t.responses = s.responses ++ [.error e] → mayRaise i s.debugAutoEnable e = true := by
  obtain ⟨q, hq⟩ := latchesOf_request hi
  have orderly := request_orderly hi hq s
  have recorded := (Prog.WritesSilently.programOf q.op).run (s.accept q)
  have ready := life_of_served hq hx
  rw [exec_request hq, if_pos ready] at hx
  cases e : (programOf q.op).run (s.accept q) <;> rw [e] at orderly recorded hx <;> cases hx
  case ok r u =>
    obtain ⟨evs, records, -⟩ := recorded
    refine ⟨orderly, fun er answered => ?_⟩
    rw [State.respond_responses, records.responses] at answered
    cases List.append_cancel_left answered
  case raised er u =>
    obtain ⟨evs, records, -⟩ := recorded
    obtain ⟨listed, closable⟩ := orderly
    refine ⟨closable, fun er' answered => ?_⟩
    rw [State.takeError_responses, records.responses] at answered
    cases List.append_cancel_left answered
    exact listed
  case hung =>
    obtain ⟨evs, ev, records, -⟩ := recorded
    refine ⟨orderly, fun er answered => ?_⟩
    rw [records.responses] at answered
    simp at answered

/-- Settles O19: each program raises the errors of its row alone (`request_orderly`). -/
theorem onlyTheListedErrorsArise : Obligations.OnlyTheListedErrorsArise := by
  unfold Obligations.OnlyTheListedErrorsArise
  intro i s t e hi hx answered
  exact (exec_orderly hi hx).2 e answered

/-- Settles O20: an operation that fails stops the request, which adds the events of a close at most (`request_orderly`). -/
theorem errorsArePrecise : Obligations.ErrorsArePrecise := by
  unfold Obligations.ErrorsArePrecise
  intro i s t evs hi hx ht
  obtain ⟨evs', ht', precise⟩ := (exec_orderly hi hx).1
  obtain rfl : evs' = evs := List.append_cancel_left (ht'.symm.trans ht)
  simpa using precise [] rfl

end Sys2Proof.Machine
end

section
/-! PROOF. Reset (70_reset_and_hazards.md): construction is one probe of the ISP address, and releasing the handle touches nothing
(R186, R189). -/

namespace Sys2Proof.Machine

/-- The probe of construction reads the pointed ISP register and changes nothing (R66, R85). -/
theorem State.Quiet.ctorProbe {s : State} (h : s.Quiet) (hw : s.target.owedWrite = 0) :
    transact txCtorProbe s = .ok [s.target.peek (.isp s.target.ispPtr)]
      (s.after [rOk .isp [] [s.target.peek (.isp s.target.ispPtr)]] s.target) := h.ok hw rfl rfl

/-- A construction whose probe succeeds (R186). -/
theorem construct_of_ok {s t : State} {rs : List Byte} (h : transact txCtorProbe s = .ok rs t) : construct s = .next t.built := by
  simp only [construct, construction_run, h]

/-- The error a construction reports for a probe that fails (R165, R186). -/
def constructionError : ErrClass → Err
  | .unreachable => .deviceUnreachable
  | .other => .transportError .other

/-- A construction whose probe fails (R186). -/
theorem construct_of_raised {s t : State} {k : ErrClass} (h : transact txCtorProbe s = .raised (.transportError k) t) :
    construct s = .next (t.die (constructionError k)) := by
  simp only [construct, construction_run, h]
  cases k <;> rfl

/-- A probe the transport reports as failed: the target is as the MCU's turn left it, unless the probe reached it and took a write
that had yet to settle (R71, R73, R164). -/
theorem transact_ctorProbe_failed {s : State} {k : ErrClass} {took : Bool} {fs : List Fate}
    (ho : s.oracle = .override (.err k) took :: fs) :
    ∃ g, transact txCtorProbe s =
        .raised (.transportError k) (s.mcuActs.dropFate.record (eventOf txCtorProbe (.err k)) g) ∧
      (took = false ∨ s.target.owedWrite = 0 → g = s.mcuActs.target) := by
  cases took with
  | false => exact ⟨_, transact_override ho, fun _ => rfl⟩
  | true =>
    have reached : transact txCtorProbe s = .raised (.transportError k) (s.mcuActs.dropFate.record (eventOf txCtorProbe (.err k))
        (s.mcuActs.target.unsettle.reported s.mcuActs.target (.err k))) := by
      rw [transact_eq, ho]
      rfl
    refine ⟨_, reached, fun settled => ?_⟩
    have owed : s.mcuActs.target.owedWrite = 0 := by simpa [State.mcuActs] using settled
    rw [Target.unsettle_settled _ owed, Target.reported]

theorem step_unbuilt {s : State} (h : s.life = .unbuilt) : step s = construct s := by
  simp only [step, h]

/-- Settles O10: a construction is its probe, whose byte is discarded and whose failure is reported. -/
theorem constructionProbesTheIspAddress : Obligations.ConstructionProbesTheIspAddress := by
  unfold Obligations.ConstructionProbesTheIspAddress
  intro s hl
  rw [step_unbuilt hl]
  refine ⟨fun ho hm hw => ?_, fun k took fs ho => ?_⟩
  · have probe := (State.Quiet.of_nil ho hm).ctorProbe hw
    refine ⟨s.target.peek (.isp s.target.ispPtr), (construct_of_ok probe).trans ?_⟩
    simp [State.built, State.after, hm, haltedReset, autoReset]
  · obtain ⟨g, probe, settled⟩ := transact_ctorProbe_failed ho
    refine ⟨g, (construct_of_raised probe).trans ?_, settled⟩
    simp only [State.die, State.record, State.dropFate, State.mcuActs, ho]
    cases k <;> rfl

/-- Settles O12: releasing the handle writes the engine's own state alone, and takes no bus primitive. -/
theorem releaseTouchesNothing : Obligations.ReleaseTouchesNothing := by
  unfold Obligations.ReleaseTouchesNothing
  intro s rest hl hh
  have released : step s = .next { s with host := rest }.release := by
    simp only [step, hl, fetch, hh, State.actDone, List.tail_cons]
  exact ⟨_, released, rfl, rfl, rfl, rfl, rfl, rfl⟩

end Sys2Proof.Machine
end

section
/-! PROOF. The delays of a request (R193, R198, R200, R202), whatever the transport answers. One walk through the programs keeps the
delays that are due after the last transaction, which the delays that follow pay, and counts what the events so far cost. -/

namespace Sys2Proof.Machine

/-! Events with their delays. -/

theorem settleEvents_filter_isTxn (halt : Bool) : (settleEvents halt).filter Event.isTxn = [] := by cases halt <;> rfl

theorem delaysBefore_filter_isTxn (p : Params) (e : Event) : (delaysBefore p e).filter Event.isTxn = [] := by
  unfold delaysBefore
  split
  · rfl
  · split <;> rfl
  · rfl

theorem delaysAfter_filter_isTxn (p : Params) (halt : Bool) (e : Event) : (delaysAfter p halt e).filter Event.isTxn = [] := by
  have settle := settleEvents_filter_isTxn halt
  unfold delaysAfter
  split
  · rfl
  · split
    · rfl
    · split
      · rfl
      all_goals exact settle
  · rfl

/-- The events are transactions with exactly their delays around them. -/
def Spaced (p : Params) (halt : Bool) (evs : List Event) : Prop := evs = withDelays p halt (evs.filter Event.isTxn)

theorem Spaced.append {p : Params} {halt : Bool} {es es' : List Event} (h : Spaced p halt es) (h' : Spaced p halt es') :
    Spaced p halt (es ++ es') := by
  unfold Spaced withDelays at *
  rw [List.filter_append, List.flatMap_append, ← h, ← h']

theorem Spaced.transaction (p : Params) (halt : Bool) (x : Txn) (a : Answer) :
    Spaced p halt (delaysBefore p (eventOf x a) ++ eventOf x a :: delaysAfter p halt (eventOf x a)) := by
  simp [Spaced, withDelays, delaysBefore_filter_isTxn, delaysAfter_filter_isTxn]

theorem totalDelay_append (es es' : List Event) : totalDelay (es ++ es') = totalDelay es + totalDelay es' := by
  induction es with
  | nil => simp [totalDelay]
  | cons e es ih => cases e <;> simp [totalDelay, ih, Nat.add_assoc]

theorem totalDelay_settleEvents (halt : Bool) : totalDelay (settleEvents halt) = if halt then 0 else 10 := by cases halt <;> rfl

/-- The events take 100 ms for each switch of debug mode, and `ms` beside these (R202). -/
def Costs (p : Params) (ms : Nat) (evs : List Event) : Prop := totalDelay evs = 100 * modeSwitches p evs + ms

theorem Costs.append {p : Params} {m n : Nat} {es es' : List Event} (h : Costs p m es) (h' : Costs p n es') :
    Costs p (m + n) (es ++ es') := by
  have switches : modeSwitches p (es ++ es') = modeSwitches p es + modeSwitches p es' := List.countP_append
  unfold Costs at *
  rw [totalDelay_append, switches, h, h']
  omega

/-- Delays alone switch nothing. -/
theorem Costs.of_delays {p : Params} {ds : List Event} (h : ds.filter Event.isTxn = []) : Costs p (totalDelay ds) ds := by
  have switches : modeSwitches p ds = 0 := List.countP_eq_zero.2 fun e he => by
    have delay : ¬e.isTxn = true := List.filter_eq_nil_iff.1 h e he
    cases e with
    | d ms => simp
    | _ => exact absurd rfl delay
  rw [Costs, switches, Nat.mul_zero, Nat.zero_add]

/-- A transaction with no delay before it is no switch of debug mode. -/
theorem Costs.of_plain {p : Params} {x : Txn} {a : Answer} (h : delaysBefore p (eventOf x a) = []) :
    Costs p 0 [eventOf x a] := by
  match x with
  | .wr dev ws n => rfl
  | .w .isp bs => rfl
  | .w .ddc bs => cases h
  | .w .dbg bs =>
    have other : bs ≠ p.disable.bytes := fun e => by simp [delaysBefore, eventOf, e] at h
    simp [Costs, totalDelay, modeSwitches, eventOf, other]

/-! The delays of each frame (R193). -/

/-- The frame is no mode sequence, and `due` are the delays after it where it succeeds. -/
structure Owes (p : Params) (halt : Bool) (x : Txn) (due : List Event) : Prop where
  before : ∀ a, delaysBefore p (eventOf x a) = []
  after : ∀ rs, delaysAfter p halt (eventOf x (.ok rs)) = due

/-- The delays after it are what such a frame costs. -/
theorem Owes.costs {p : Params} {halt : Bool} {x : Txn} {due : List Event} (h : Owes p halt x due) (rs : List Byte) :
    Costs p (totalDelay due) (eventOf x (.ok rs) :: due) := by
  have delays : due.filter Event.isTxn = [] := by rw [← h.after rs, delaysAfter_filter_isTxn]
  simpa using (Costs.of_plain (h.before (.ok rs))).append (.of_delays delays)

/-- A read is followed by no delay. -/
theorem Owes.wr {p : Params} {halt : Bool} (dev : Dev) (ws : List Byte) (n : Nat) : Owes p halt (.wr dev ws n) [] :=
  ⟨fun _ => rfl, fun _ => rfl⟩

theorem Owes.isp {p : Params} {halt : Bool} (bs : List Byte) : Owes p halt (.w .isp bs) [] := ⟨fun _ => rfl, fun _ => rfl⟩

/-- The disable sequence has two bytes (R84). -/
theorem disableSeq_ne (p : Params) {bs : List Byte} (h : bs.length ≠ 2) : bs ≠ p.disable.bytes := fun e => h (congrArg List.length e)

theorem Owes.halt {p : Params} {halt : Bool} (hd : HaltDistinct p) (on : Bool) : Owes p halt (txHalt on) [.d 100] := by
  have other : [cmdHalt, if on then haltVal else runVal] ≠ p.disable.bytes := fun e => hd.ne_txHalt on (congrArg (Txn.w .dbg) e).symm
  exact ⟨fun _ => if_neg other, fun _ => if_neg other⟩

theorem Owes.xdataRd {p : Params} {halt : Bool} (a : Addr16) : Owes p halt (txXdataRd a) (settleEvents halt) :=
  ⟨fun _ => if_neg (disableSeq_ne p (by simp)), fun _ => if_neg (disableSeq_ne p (by simp))⟩

theorem Owes.xdataWr {p : Params} {halt : Bool} (a : Addr16) (v : Byte) : Owes p halt (txXdataWr a v) (settleEvents halt) :=
  ⟨fun _ => if_neg (disableSeq_ne p (by simp)), fun _ => if_neg (disableSeq_ne p (by simp))⟩

theorem Owes.eeRd {p : Params} {halt : Bool} (a : Addr16) (t : Byte) :
    Owes p halt (txEeRd a t) (.d 10 :: settleEvents halt) :=
  ⟨fun _ => if_neg (disableSeq_ne p (by simp)), fun _ => if_neg (disableSeq_ne p (by simp))⟩

theorem Owes.eeWr {p : Params} {halt : Bool} (a : Addr16) (t v : Byte) :
    Owes p halt (txEeWr a t v) (.d 10 :: settleEvents halt) :=
  ⟨fun _ => if_neg (disableSeq_ne p (by simp)), fun _ => if_neg (disableSeq_ne p (by simp))⟩

theorem delaysBefore_txDebug (p : Params) (on : Bool) (a : Answer) : delaysBefore p (eventOf (txDebug on p) a) = [.d 50] := by
  cases on with
  | true => rfl
  | false => exact if_pos rfl

theorem delaysAfter_txDebug (p : Params) (halt on : Bool) (rs : List Byte) :
    delaysAfter p halt (eventOf (txDebug on p) (.ok rs)) = [.d 50] := by
  cases on with
  | true => rfl
  | false => exact if_pos rfl

/-- A switch of debug mode and its two delays cost the 100 ms of the switch alone. -/
theorem Costs.txDebug (p : Params) (on : Bool) (a : Answer) : Costs p 0 ([.d 50] ++ eventOf (txDebug on p) a :: [.d 50]) := by
  cases on <;> simp [Costs, totalDelay, modeSwitches, eventOf, Machine.txDebug, txDbgEn, txDbgDis]

/-- A transaction that fails, or never returns, is followed by no delay (R198). -/
theorem delaysAfter_of_lost (p : Params) (halt : Bool) (x : Txn) {a : Answer} (h : ∀ rs, a ≠ .ok rs) :
    delaysAfter p halt (eventOf x a) = [] := by
  unfold delaysAfter
  split
  · next e => cases x <;> cases e; exact absurd rfl (h _)
  · next e => cases x <;> cases e; exact absurd rfl (h _)
  · rfl

/-! How a request goes on in time. -/

/-- Since `s₀` only transactions with exactly their delays have happened. -/
def SpacedSince (s₀ : State) (halt : Bool) (s : State) : Prop := ∃ evs, s.trace = s₀.trace ++ evs ∧ Spaced s₀.cfg halt evs

theorem SpacedSince.transaction {s₀ s t : State} {halt : Bool} {x : Txn} {a : Answer} (h : SpacedSince s₀ halt s)
    (ht : t.trace = s.trace ++ (delaysBefore s₀.cfg (eventOf x a) ++ eventOf x a :: delaysAfter s₀.cfg halt (eventOf x a))) :
    SpacedSince s₀ halt t := by
  obtain ⟨evs, hs, spaced⟩ := h
  exact ⟨_, by rw [ht, hs, List.append_assoc], spaced.append (.transaction s₀.cfg halt x a)⟩

/-- A transaction that does not succeed, after the delays before it. -/
theorem SpacedSince.lost {s₀ s t : State} {halt : Bool} {x : Txn} {a : Answer} (h : SpacedSince s₀ halt s) (ha : ∀ rs, a ≠ .ok rs)
    (ht : t.trace = s.trace ++ (delaysBefore s₀.cfg (eventOf x a) ++ [eventOf x a])) : SpacedSince s₀ halt t :=
  h.transaction (x := x) (a := a) (by rw [ht, delaysAfter_of_lost _ _ _ ha])

/-- Where a request stands in time: whether its bracket is open, and the delays that are due next. -/
structure TimePoint where
  isOpen : Bool
  due : List Event

/-- A request begun at `s₀` goes on at `s`: once the delays that are due have passed, its events are spaced and cost `ms`. -/
structure Running (s₀ : State) (halt : Bool) (pt : TimePoint) (ms : Nat) (s : State) : Prop where
  cfg : s.cfg = s₀.cfg
  isOpen : s.bracketOpen = pt.isOpen
  events : ∃ evs, s.trace ++ pt.due = s₀.trace ++ evs ∧ Spaced s₀.cfg halt evs ∧ Costs s₀.cfg ms evs

theorem Running.accepted (s : State) (q : Latches) (halt : Bool) : Running (s.accept q) halt ⟨false, []⟩ 0 (s.accept q) :=
  ⟨rfl, rfl, [], rfl, rfl, rfl⟩

section running
variable {s₀ s t : State} {halt b : Bool} {ds : List Event} {ms : Nat}

theorem Running.spacedSince (h : Running s₀ halt ⟨b, []⟩ ms s) : SpacedSince s₀ halt s := by
  obtain ⟨evs, hs, spaced, -⟩ := h.events
  exact ⟨evs, (List.append_nil _).symm.trans hs, spaced⟩

/-- A change of the engine's own state that shows nowhere in the trace. -/
theorem Running.silent (h : Running s₀ halt ⟨b, ds⟩ ms s) (cfg : t.cfg = s.cfg := by rfl)
    (trace : t.trace = s.trace := by rfl) (isOpen : t.bracketOpen = s.bracketOpen := by rfl) : Running s₀ halt ⟨b, ds⟩ ms t :=
  ⟨cfg.trans h.cfg, isOpen.trans h.isOpen, trace ▸ h.events⟩

theorem Running.markOpen (h : Running s₀ halt ⟨b, ds⟩ ms s) : Running s₀ halt ⟨true, ds⟩ ms s.markOpen := ⟨h.cfg, rfl, h.events⟩

theorem Running.markClosed (h : Running s₀ halt ⟨b, ds⟩ ms s) : Running s₀ halt ⟨false, ds⟩ ms s.markClosed :=
  ⟨h.cfg, rfl, h.events⟩

/-- A delay that is due passes. -/
theorem Running.sleep {d : Nat} (h : Running s₀ halt ⟨b, .d d :: ds⟩ ms s) : Running s₀ halt ⟨b, ds⟩ ms (sleep d s) := by
  obtain ⟨evs, hs, timed⟩ := h.events
  exact ⟨h.cfg, h.isOpen, evs, (List.append_assoc ..).trans hs, timed⟩

/-- A transaction, with the delays before it that have passed and those after it that are due. -/
theorem Running.transaction {x : Txn} {a : Answer} {n : Nat} (h : Running s₀ halt ⟨b, []⟩ ms s)
    (ht : t.trace ++ ds =
      s.trace ++ (delaysBefore s₀.cfg (eventOf x a) ++ eventOf x a :: delaysAfter s₀.cfg halt (eventOf x a)))
    (costs : Costs s₀.cfg n (delaysBefore s₀.cfg (eventOf x a) ++ eventOf x a :: delaysAfter s₀.cfg halt (eventOf x a)))
    (cfg : t.cfg = s.cfg := by rfl) (isOpen : t.bracketOpen = s.bracketOpen := by rfl) : Running s₀ halt ⟨b, ds⟩ (ms + n) t := by
  obtain ⟨evs, hs, spaced, cost⟩ := h.events
  rw [List.append_nil] at hs
  exact ⟨cfg.trans h.cfg, isOpen.trans h.isOpen, _, by rw [ht, hs, List.append_assoc],
    spaced.append (.transaction s₀.cfg halt x a), cost.append costs⟩

end running

/-- The operation completes with `Q`; where it does not complete, its events are spaced. -/
def Res.Timed (s₀ : State) (halt : Bool) (Q : State → Prop) {α : Type} : Res α → Prop
  | .ok _ s => Q s
  | .raised _ s => SpacedSince s₀ halt s
  | .hung s => SpacedSince s₀ halt s
  | .fault _ => True
  | .refused _ => True

theorem Res.Timed.bind {s₀ : State} {halt : Bool} {Q Q' : State → Prop} {α β : Type} {r : Res α} {k : α → State → Res β}
    (h : r.Timed s₀ halt Q) (hk : ∀ a s, Q s → (k a s).Timed s₀ halt Q') : (r.bind k).Timed s₀ halt Q' := by
  cases r with
  | ok a s => exact hk a s h
  | raised e s => exact h
  | hung s => exact h
  | fault f => trivial
  | refused q => trivial

/-- The program takes a request from one point to the next and costs `n`, beside the switches of debug mode. -/
def Prog.Timed (s₀ : State) (halt : Bool) (pt pt' : TimePoint) (n : Nat) {α : Type} (p : Prog α) : Prop :=
  ∀ ms s, Running s₀ halt pt ms s → (p.run s).Timed s₀ halt (Running s₀ halt pt' (ms + n))

namespace Prog.Timed

variable {s₀ : State} {halt b : Bool} {pt pt' pt'' : TimePoint} {m n : Nat} {α β : Type}

theorem ret (a : α) : (Prog.ret a).Timed s₀ halt pt pt 0 := fun _ _ h => h

theorem throw (e : Err) : (Prog.throw e : Prog α).Timed s₀ halt ⟨b, []⟩ pt n := fun _ _ h => h.spacedSince

theorem bind {p : Prog α} {k : α → Prog β} (hp : p.Timed s₀ halt pt pt' m) (hk : ∀ a, (k a).Timed s₀ halt pt' pt'' n) :
    (p.bind k).Timed s₀ halt pt pt'' (m + n) := fun ms s h => by
  rw [Prog.run_bind, ← Nat.add_assoc]
  exact (hp ms s h).bind fun a u hu => hk a _ u hu

theorem of_cost {p : Prog α} (h : p.Timed s₀ halt pt pt' m) (cost : m = n) : p.Timed s₀ halt pt pt' n := cost ▸ h

theorem ite {q : Prop} [Decidable q] {p p' : Prog α} (h : p.Timed s₀ halt pt pt' n) (h' : p'.Timed s₀ halt pt pt' n) :
    (if q then p else p').Timed s₀ halt pt pt' n := by
  split
  · exact h
  · exact h'

theorem get {r : State → Prog α} (h : ∀ s, s.cfg = s₀.cfg → (r s).Timed s₀ halt pt pt' n) :
    (Prog.get r).Timed s₀ halt pt pt' n := fun ms s running => h s running.cfg ms s running

theorem assign {f : State → State} (h : ∀ ms s, Running s₀ halt pt ms s → Running s₀ halt pt' ms (f s)) :
    (Machine.assign f).Timed s₀ halt pt pt' 0 := h

theorem silent {f : State → State} (h : ∀ ms s, Running s₀ halt pt ms s → Running s₀ halt pt ms (f s) := by
    exact fun _ _ h => h.silent) : (Machine.assign f).Timed s₀ halt pt pt 0 := h

/-- A delay that is due. -/
theorem delay (ms : Nat) {ds : List Event} : (Machine.delay ms).Timed s₀ halt ⟨b, .d ms :: ds⟩ ⟨b, ds⟩ 0 := fun _ _ h => h.sleep

theorem settleUnlessHalt : (Machine.settleUnlessHalt halt).Timed s₀ halt ⟨b, settleEvents halt⟩ ⟨b, []⟩ 0 := by
  cases halt with
  | true => exact ret _
  | false => exact delay _

/-- A transaction that is no mode sequence: its delays are due after it, and are what it costs. -/
theorem bus {x : Txn} {due : List Event} (owes : Owes s₀.cfg halt x due) :
    (Machine.bus x).Timed s₀ halt ⟨b, []⟩ ⟨b, due⟩ (totalDelay due) := by
  intro ms s h
  have running : Running s₀ halt ⟨b, []⟩ ms s.mcuActs.dropFate := h.silent
  rw [bus_run]
  have lost {a : Answer} (g : Target) (ha : ∀ rs, a ≠ .ok rs) : SpacedSince s₀ halt (s.mcuActs.dropFate.record (eventOf x a) g) :=
    running.spacedSince.lost ha (by rw [owes.before]; rfl)
  rcases transact_concludes x s with ⟨rs | k | _, g, e⟩ | e <;> rw [e]
  · refine running.transaction (x := x) (a := .ok rs) ?_ ?_
    · rw [owes.before, owes.after]
      exact List.append_assoc ..
    · rw [owes.before, owes.after]
      exact owes.costs rs
  · exact lost g nofun
  · exact lost g nofun
  · trivial

/-! The mode gate (41_mode_gate.md). -/

theorem queryIspEnabled : Machine.queryIspEnabled.Timed s₀ halt ⟨b, []⟩ ⟨b, []⟩ 0 :=
  (bus (.wr _ _ _)).bind fun _ => ret _

theorem setIspEnabled (on force : Bool) : (Machine.setIspEnabled on force).Timed s₀ halt ⟨b, []⟩ ⟨b, []⟩ 0 :=
  have write := (bus (.isp _)).bind fun _ => ret ()
  ite write (queryIspEnabled.bind fun _ => ite (ret _) write)

theorem ispGuard : Machine.ispGuard.Timed s₀ halt ⟨b, []⟩ ⟨b, []⟩ 0 := queryIspEnabled.bind fun _ => ite (ret _) (throw _)

/-- The probe of debug mode: where it finds it off it is no failure (R114), and the request goes on. -/
theorem queryDebugEnabled : Machine.queryDebugEnabled.Timed s₀ halt ⟨b, []⟩ ⟨b, []⟩ 0 := by
  intro ms s h
  have running : Running s₀ halt ⟨b, []⟩ ms s.mcuActs.dropFate := h.silent
  have probed (a : Answer) (g : Target) : Running s₀ halt ⟨b, []⟩ ms (s.mcuActs.dropFate.record (eventOf txDbgProbe a) g) :=
    running.transaction (x := txDbgProbe) (a := a) (n := 0) (List.append_nil _) rfl
  rw [queryDebugEnabled_run]
  rcases transact_concludes txDbgProbe s with ⟨rs | ⟨_ | _⟩ | _, g, e⟩ | e <;> rw [e]
  · exact probed _ g
  · exact probed _ g
  · exact (probed _ g).spacedSince
  · exact (probed _ g).spacedSince
  · trivial

/-- A switch of debug mode: 50 ms before the sequence, and 50 ms after it where it succeeds (R117, R193, R198). -/
theorem modeSwitch (on : Bool) : ((Machine.delay tMode).bind fun _ => (Machine.bus (txDebug on s₀.cfg)).bind fun _ =>
    Machine.delay tMode).Timed s₀ halt ⟨b, []⟩ ⟨b, []⟩ 0 := by
  intro ms s h
  simp only [Prog.run_bind, delay_run, Res.bind_ok, bus_run]
  have running : Running s₀ halt ⟨b, []⟩ ms s := h
  have lost {a : Answer} {t : State} (ht : t.trace = s.trace ++ [.d 50] ++ [eventOf (txDebug on s₀.cfg) a])
      (ha : ∀ rs, a ≠ .ok rs) : SpacedSince s₀ halt t :=
    running.spacedSince.lost ha (by rw [delaysBefore_txDebug, ht, List.append_assoc])
  rcases transact_concludes (txDebug on s₀.cfg) (Machine.sleep tMode s) with ⟨rs | k | _, g, e⟩ | e <;> rw [e]
  · show Running s₀ halt ⟨b, []⟩ (ms + 0) (Machine.sleep tMode
      ((Machine.sleep tMode s).mcuActs.dropFate.record (eventOf (txDebug on s₀.cfg) (.ok rs)) g))
    refine running.transaction (x := txDebug on s₀.cfg) (a := .ok rs) ?_ ?_ (by simp) (by simp)
    · rw [delaysBefore_txDebug, delaysAfter_txDebug]
      simp [tMode]
    · rw [delaysBefore_txDebug, delaysAfter_txDebug]
      exact .txDebug _ on _
  · exact lost rfl nofun
  · exact lost rfl nofun
  · trivial

theorem setDebugEnabled (on force : Bool) : (Machine.setDebugEnabled on force).Timed s₀ halt ⟨b, []⟩ ⟨b, []⟩ 0 :=
  have write := get fun _ hs => ite (throw (.invalidState .disableWhileHalted)) (hs ▸ modeSwitch on)
  ite write (queryDebugEnabled.bind fun _ => ite (ret _) write)

theorem debugGuardEnter : Machine.debugGuardEnter.Timed s₀ halt ⟨b, []⟩ ⟨b, []⟩ 0 :=
  bind silent fun _ => get fun _ _ =>
    ite (bind silent fun _ => setDebugEnabled true false) (queryDebugEnabled.bind fun _ => ite (ret _) (throw _))

theorem debugGuardExit : Machine.debugGuardExit.Timed s₀ halt ⟨b, []⟩ ⟨b, []⟩ 0 :=
  get fun _ _ => ite (setDebugEnabled false false) (ret _)

/-! The transfers (R138 to R152). -/

theorem dataRead : ((Machine.bus txDbgData).bind fun rs => .ret (rs.headD 0)).Timed s₀ halt ⟨b, []⟩ ⟨b, []⟩ 0 :=
  (bus (.wr _ _ _)).bind fun _ => ret _

theorem readXfer (p : Plan) (a : Int) :
    (Machine.readXfer p a).Timed s₀ p.halt ⟨b, []⟩ ⟨b, []⟩ (transferDelay p.space p.halt) := by
  have settle := totalDelay_settleEvents p.halt
  unfold Machine.readXfer
  cases p.space
  · exact (bus (.isp _)).bind fun _ => (bus (.wr _ _ _)).bind fun _ => ret _
  · exact ((bus (.xdataRd _)).bind fun _ => settleUnlessHalt.bind fun _ => dataRead).of_cost settle
  · refine ((bus (.eeRd _ _)).bind fun _ => (delay _).bind fun _ => settleUnlessHalt.bind fun _ => dataRead).of_cost ?_
    cases p.halt <;> rfl

theorem writeXfer (p : Plan) (a : Int) (v : Byte) :
    (Machine.writeXfer p a v).Timed s₀ p.halt ⟨b, []⟩ ⟨b, []⟩ (transferDelay p.space p.halt) := by
  unfold Machine.writeXfer
  cases p.space
  · exact (bus (.isp _)).bind fun _ => ret _
  · exact ((bus (.xdataWr _ _)).bind fun _ => settleUnlessHalt).of_cost (totalDelay_settleEvents p.halt)
  · refine ((bus (.eeWr _ _ _)).bind fun _ => (delay _).bind fun _ => settleUnlessHalt).of_cost ?_
    cases p.halt <;> rfl

theorem transfer (p : Plan) (i : Nat) : (p.transfer i).Timed s₀ p.halt ⟨b, []⟩ ⟨b, []⟩ (transferDelay p.space p.halt) :=
  ite (writeXfer p _ _) ((readXfer p _).bind fun _ => silent)

theorem advance (p : Plan) : p.advance.Timed s₀ halt ⟨b, []⟩ ⟨b, []⟩ 0 := silent

theorem transfers (p : Plan) (k i : Nat) :
    (p.transfers k i).Timed s₀ p.halt ⟨b, []⟩ ⟨b, []⟩ (transferDelay p.space p.halt * k) := by
  induction k generalizing i with
  | zero => exact ret _
  | succ k ih =>
    exact ((transfer p i).bind fun _ => (advance p).bind fun _ => ih (i + 1)).of_cost (by rw [Nat.mul_succ]; omega)

/-! The range operation (R125) and `haltMcu` (R131). -/

section bracket
variable (distinct : HaltDistinct s₀.cfg)
include distinct

theorem haltCtl (on : Bool) : (Machine.haltCtl on).Timed s₀ halt ⟨b, []⟩ ⟨b, []⟩ 100 :=
  (bus (.halt distinct on)).bind fun _ => bind silent fun _ => delay _

/-- Opening the bracket costs its halt control (R127). -/
theorem haltOpen (p : Plan) : p.haltOpen.Timed s₀ halt ⟨false, []⟩ ⟨p.bracket, []⟩ (if p.bracket then 100 else 0) := by
  unfold Plan.haltOpen
  cases p.bracket with
  | true => exact (haltCtl distinct true).bind fun _ => (assign fun _ _ => Running.markOpen).bind fun _ => advance p
  | false => exact ret _

theorem haltClose (p : Plan) : p.haltClose.Timed s₀ halt ⟨b, []⟩ ⟨false, []⟩ 100 :=
  (assign fun _ _ => Running.markClosed).bind fun _ => (haltCtl distinct false).bind fun _ => (advance p).bind fun _ =>
  get (n := 0) fun _ _ => by
    split
    · exact throw _
    · exact ret _

/-- The close that runs for an error does not complete: it ends with that error or with its own (R129, R130). -/
theorem haltClose_of_error (p : Plan) {Q : State → Prop} {s : State} {e : Err} (pending : s.pendingError = some e)
    (h : SpacedSince s₀ halt s) : (p.haltClose.run s).Timed s₀ halt Q := by
  have owes := Owes.halt (halt := halt) distinct false
  have lost {a : Answer} {t : State} (ht : t.trace = s.trace ++ [eventOf (txHalt false) a]) (ha : ∀ rs, a ≠ .ok rs) :
      SpacedSince s₀ halt t :=
    h.lost ha (by rw [owes.before, ht]; rfl)
  rw [Plan.haltClose_run, haltCtl_run]
  rcases transact_concludes (txHalt false) s.markClosed with ⟨rs | k | _, g, e'⟩ | e' <;> rw [e']
  · simp only [State.conclude, Res.bind_ok, sleep_pendingError, State.setHalted_pendingError, State.record_pendingError,
      State.dropFate_pendingError, State.mcuActs_pendingError, State.markClosed_pendingError, pending]
    exact h.transaction (x := txHalt false) (a := .ok rs) (by rw [owes.before, owes.after]; exact List.append_assoc ..)
  · exact lost rfl nofun
  · exact lost rfl nofun
  · trivial

/-- The transfers and the `finally` that closes their bracket (R129). -/
theorem close (p : Plan) {body : Prog Unit} (h : body.Timed s₀ halt ⟨b, []⟩ ⟨b, []⟩ n) :
    (p.close body).Timed s₀ halt ⟨b, []⟩ ⟨false, []⟩ (n + if b then 100 else 0) := by
  intro ms s running
  have ends := h ms s running
  rw [Plan.close_run]
  cases e : body.run s <;> rw [e] at ends
  case ok a t =>
    have isOpen : t.bracketOpen = b := ends.isOpen
    rw [Plan.closed, isOpen, ← Nat.add_assoc]
    cases b with
    | true => exact haltClose distinct p _ t ends
    | false => exact ends
  case raised er t =>
    have spaced : SpacedSince s₀ halt t := ends
    rw [Plan.closed]
    by_cases isOpen : t.bracketOpen = true
    · rw [if_pos isOpen]
      exact haltClose_of_error distinct p (e := er) rfl spaced
    · rw [if_neg isOpen]
      exact spaced
  all_goals exact ends

/-- A range request that completes costs its bracket and its transfers (R202). -/
theorem program (p : Plan) : p.program.Timed s₀ p.halt ⟨false, []⟩ ⟨false, []⟩
    ((if p.bracket then 200 else 0) + transferDelay p.space p.halt * p.count) := by
  have gate : p.gate.Timed s₀ p.halt ⟨false, []⟩ ⟨false, []⟩ 0 := by
    unfold Plan.gate
    cases p.space
    · exact ispGuard
    · exact debugGuardEnter
    · exact debugGuardEnter
  have check : p.check.Timed s₀ p.halt ⟨false, []⟩ ⟨false, []⟩ 0 := by
    refine ite (throw _) ?_
    cases validate p.space p.start p.length with
    | some e => exact throw e
    | none => exact ret _
  have exit : p.exit.Timed s₀ p.halt ⟨false, []⟩ ⟨false, []⟩ 0 := by
    unfold Plan.exit
    cases p.space
    · exact ret _
    · exact debugGuardExit
    · exact debugGuardExit
  refine ((advance p).bind fun _ => gate.bind fun _ => (advance p).bind fun _ => check.bind fun _ => (advance p).bind fun _ =>
    (haltOpen distinct p).bind fun _ => (close distinct p (transfers p _ _)).bind fun _ => exit.bind fun _ =>
      get fun _ _ => ret _).of_cost ?_
  split <;> omega

theorem haltMcu (on : Bool) : (Machine.haltMcu on).Timed s₀ halt ⟨b, []⟩ ⟨b, []⟩ 100 :=
  have place (ph : State → Phase) : (atPhase ph).Timed s₀ halt ⟨b, []⟩ ⟨b, []⟩ 0 := silent
  (place _).bind fun _ => debugGuardEnter.bind fun _ => (place _).bind fun _ => (haltCtl distinct on).bind fun _ =>
  (place _).bind fun _ => debugGuardExit.bind fun _ => ret _

end bracket

theorem ispReset : Machine.ispReset.Timed s₀ halt ⟨b, []⟩ ⟨b, []⟩ 0 :=
  (setIspEnabled true true).bind fun _ => (bus (.isp _)).bind fun _ => ret _

end Prog.Timed

/-! The requests. -/

/-- However a request's program ends, the events since the acceptance are spaced. -/
theorem Prog.Timed.spaced {α : Type} {p : Prog α} {n : Nat} {s : State} {q : Latches} {halt : Bool}
    (h : p.Timed (s.accept q) halt ⟨false, []⟩ ⟨false, []⟩ n) :
    (p.run (s.accept q)).Timed (s.accept q) halt (SpacedSince (s.accept q) halt) := by
  have ends := h _ _ (.accepted s q halt)
  cases e : p.run (s.accept q) <;> rw [e] at ends
  case ok a t => exact Running.spacedSince ends
  all_goals exact ends

/-- The events of every request are spaced, from its acceptance on. -/
theorem request_spaced {i : Instr} {q : Latches} (hq : latchesOf i = some q) {s : State} (distinct : HaltDistinct s.cfg) :
    ((programOf q.op).run (s.accept q)).Timed (s.accept q) q.halt (SpacedSince (s.accept q) q.halt) := by
  have accepted := Running.accepted s q q.halt
  rcases program_cases hq with ⟨p, hp, e⟩ | ⟨-, e⟩ | ⟨-, e⟩ | ⟨-, e⟩ | ⟨-, e⟩ | ⟨-, e⟩ | ⟨-, e⟩ | ⟨-, e⟩ <;> rw [e _ rfl]
  · obtain ⟨sp, -, rfl⟩ := Option.map_eq_some_iff.1 hp
    exact (Prog.Timed.program (s₀ := s.accept q) distinct _).spaced
  · exact Prog.Timed.queryIspEnabled.spaced.bind fun _ _ h => h
  · exact (Prog.Timed.setIspEnabled _ _).spaced.bind fun _ _ h => h
  · exact Prog.Timed.queryDebugEnabled.spaced.bind fun _ _ h => h
  · exact (Prog.Timed.setDebugEnabled _ _).spaced.bind fun _ _ h => h
  · exact (accepted.silent (t := (s.accept q).setAuto q.on)).spacedSince
  · exact Prog.Timed.ispReset.spaced
  · exact (Prog.Timed.haltMcu (s₀ := s.accept q) distinct _).spaced

/-- Settles O21: a request's events are spaced wherever it ends (`request_spaced`). -/
theorem delaysAreThoseOfTheTable : Obligations.DelaysAreThoseOfTheTable := by
  unfold Obligations.DelaysAreThoseOfTheTable
  intro i s t evs q distinct hq hx ht
  have timed := request_spaced hq distinct
  have ready := life_of_served hq hx
  rw [exec_request hq, if_pos ready] at hx
  have spaced : SpacedSince (s.accept q) q.halt t := by
    cases e : (programOf q.op).run (s.accept q) <;> rw [e] at timed hx <;> cases hx <;> exact timed
  obtain ⟨evs', ht', spaced⟩ := spaced
  obtain rfl : evs' = evs := List.append_cancel_left (ht'.symm.trans ht)
  exact spaced

/-- A request that is answered with a result has run its program to the end. -/
theorem Prog.WritesSilently.completes {p : Prog Result} (h : p.WritesSilently) {s t : State} {r : Result}
    (served : (p.run s).finish = .next t) (answered : t.responses = s.responses ++ [.ok r]) :
    ∃ u, p.run s = .ok r u ∧ t.trace = u.trace := by
  have recorded := h.run s
  cases e : p.run s <;> rw [e] at recorded served <;> cases served
  case ok r' u =>
    obtain ⟨evs, records, -⟩ := recorded
    rw [State.respond_responses, records.responses] at answered
    cases List.append_cancel_left answered
    exact ⟨u, rfl, rfl⟩
  case raised er u =>
    obtain ⟨evs, records, -⟩ := recorded
    rw [State.takeError_responses, records.responses] at answered
    cases List.append_cancel_left answered
  case hung =>
    obtain ⟨evs, ev, records, -⟩ := recorded
    rw [records.responses] at answered
    simp at answered

/-- What a range request that succeeds costs, by its plan (R202). -/
theorem exec_costs {i : Instr} {q : Latches} {p : Plan} (hq : latchesOf i = some q) (hp : q.plan = some p) {s t : State}
    {evs : List Event} {r : Result} (distinct : HaltDistinct s.cfg) (hx : exec i s = .next t) (ht : t.trace = s.trace ++ evs)
    (answered : t.responses = s.responses ++ [.ok r]) :
    Costs s.cfg ((if p.bracket then 200 else 0) + transferDelay p.space p.halt * p.count) evs := by
  have ready := life_of_served hq hx
  rw [exec_range hq hp s ready] at hx
  obtain ⟨u, completes, trace⟩ := (Prog.WritesSilently.program p).completes hx answered
  have timed := Prog.Timed.program (s₀ := s.accept q) distinct p 0 _ (.accepted s q p.halt)
  rw [completes, Nat.zero_add] at timed
  obtain ⟨evs', hu, -, costs⟩ := Running.events timed
  rw [List.append_nil, ← trace, ht] at hu
  rw [List.append_cancel_left hu]
  exact costs

/-- Settles O22: the program of a range request counts its delays, and one that succeeds has run it to the end (`exec_costs`). -/
theorem minimumDelayTime : Obligations.MinimumDelayTime := by
  unfold Obligations.MinimumDelayTime
  intro i s t evs sp a n w q r distinct asked hq hx ht answered
  obtain ⟨q', hq', hp, bracket, -, -⟩ := plan_of_asked asked
  obtain rfl : q = q' := Option.some.inj (hq.symm.trans hq')
  have costs := exec_costs hq hp distinct hx ht answered
  rw [costs, bracket, Nat.add_assoc]
  rfl

end Sys2Proof.Machine
end
